-- ==== Sys2Proof/Config.lean ====
section
/-! DEFINITION. The implementation parameters of 00_scope.md R6. The four widths and the number of registers shape the types
and are constants here; the parameters a configuration can vary are arguments, held in State (`Params`, and `P_RELEASE` and
`P_UNIMPL` as the inputs `cfg_release` and `cfg_unimpl`, 40_pipeline.md R101). The spec leaves no value open, so there is no
free value here. -/

namespace Sys2Proof

/-- The only value of `P_NREGS` that the record format allows: all 16 values of its 4-bit register fields name a register
(30_encoding.md R86; 60_exceptions.md R206). -/
@[simp] abbrev Config.nregs : Nat := 16

/-- `P_XLEN`: the width of a register, a cell, an operand and a result. -/
@[simp] abbrev Config.xlen : Nat := 32

/-- `P_IMM_W`: the width of an immediate, which is `P_XLEN` wide already (30_encoding.md R85). -/
@[simp] abbrev Config.immW : Nat := 32

/-- `P_CNT_W`: the width of `clock` and `retired`. -/
@[simp] abbrev Config.cntW : Nat := 32

/-- The parameters whose values the source's numeric literals give, which a model takes as arguments
(93_implementation_defined.md, "Numeric literals"). -/
structure Params where
  /-- `P_NREGS`: the number of general registers. -/
  nregs : Nat
  /-- `P_DM_SIZE`: the number of data-memory cells. -/
  dmSize : Nat
  /-- `P_PC_BASE`: the address of the program's first record, and the reset vector. -/
  pcBase : BitVec 32
  /-- `P_PC_STEP`: what a fetched record adds to `pc`. -/
  pcStep : BitVec 32
  deriving DecidableEq, Repr

/-- The values of this hardware, and the defaults: 16 registers, 4000 cells, program at 4000, step 4. -/
def Config.params : Params := ⟨16, 4000, 4000, 4⟩

/-- `P_RELEASE` (00_scope.md R7): the stage that releases a destination's scoreboard entry. -/
inductive Release where
  /-- `cfg_release = 0`: early release, at Execute; the default. -/
  | ex
  /-- `cfg_release = 1`: release at Writeback, with the destination check at Decode. -/
  | wb
  deriving DecidableEq, Repr

/-- `P_UNIMPL` (00_scope.md R8): what Decode does with BZ, BNZ, JUMP and HALT. -/
inductive Unimpl where
  /-- `cfg_unimpl = 0`: Decode raises UNIMPL; the default. -/
  | fault
  /-- `cfg_unimpl = 1`: the instruction retires with no effect. -/
  | nop
  deriving DecidableEq, Repr

end Sys2Proof
end

