-- ==== Sys2Proof/Word.lean ====
section
/-! DEFINITION. The word types of the CORE (00_scope.md R6, R11; 10_state.md R23, R24, R39; 30_encoding.md R80). -/

namespace Sys2Proof

/-- A `P_XLEN`-bit pattern: a register, a data-memory cell, an operand, a result (R11). -/
abbrev Word := BitVec Config.xlen

/-- An immediate, `P_IMM_W` bits (30_encoding.md R85). -/
abbrev Imm := BitVec Config.immW

/-- A count, `P_CNT_W` bits: `clock` and `retired` (10_state.md R29). -/
abbrev Count := BitVec Config.cntW

/-- A program address: `pc`, its copies in the latches, and `fault_pc` (10_state.md R24, R29, R39). -/
abbrev Addr := BitVec 32

/-- A 33-bit pattern, read as signed: an effective address or `fault_info` (10_state.md R29, R39). -/
abbrev Word33 := BitVec 33

/-- A 48-bit instruction record (30_encoding.md R80). -/
abbrev RecordWord := BitVec 48

/-- A 4-bit opcode field, reserved values included (30_encoding.md R82). -/
abbrev OpBits := BitVec 4

/-- A register index; all 16 values of the 4-bit field name a register (10_state.md R23). -/
abbrev Reg := Fin Config.nregs

end Sys2Proof
end

