-- ==== Sys2Proof/Syntax.lean ====
section
/-! DEFINITION. The instruction records the program store delivers and the thirteen instructions they stand for
(30_encoding.md R81 to R83; spec/opcode_table.json). -/

namespace Sys2Proof

/-- One record of the program store, its five fields as the record format names them (30_encoding.md R81). A record is
raw: `op` may be reserved, and a field the opcode does not use may hold anything (R84, R87). -/
structure Record where
  op : OpBits
  rd : Reg
  rs1 : Reg
  rs2 : Reg
  imm : Imm
  deriving DecidableEq, Repr

/-- The thirteen instructions, one constructor for each row of the opcode table, with the operands its opcode uses
(30_encoding.md R83, R91). -/
inductive Instr where
  /-- MOVC Rd,#imm (41_alu.md R160). -/
  | movc (rd : Reg) (imm : Imm)
  /-- ADD Rd,Rs1,Rs2 (R162). -/
  | add (rd rs1 rs2 : Reg)
  /-- SUB Rd,Rs1,Rs2 (R164). -/
  | sub (rd rs1 rs2 : Reg)
  /-- MUL Rd,Rs1,Rs2 (R166). -/
  | mul (rd rs1 rs2 : Reg)
  /-- AND Rd,Rs1,Rs2 (R168). -/
  | and (rd rs1 rs2 : Reg)
  /-- OR Rd,Rs1,Rs2 (R170). -/
  | or (rd rs1 rs2 : Reg)
  /-- XOR Rd,Rs1,Rs2 (R172). -/
  | xor (rd rs1 rs2 : Reg)
  /-- LOAD Rd,Rs1,#imm: rd, base rs1, offset imm (42_loadstore.md R182). -/
  | load (rd rs1 : Reg) (imm : Imm)
  /-- STORE Rs1,Rs2,#imm: value rs1, base rs2, offset imm (R184). -/
  | store (rs1 rs2 : Reg) (imm : Imm)
  /-- BZ: recognised, unimplemented; no operand is read (43_control.md R192). -/
  | bz
  /-- BNZ (R193). -/
  | bnz
  /-- JUMP (R194). -/
  | jump
  /-- HALT (R195). -/
  | halt
  deriving DecidableEq, Repr

end Sys2Proof
end

