-- ==== Sys2Proof/WellFormed.lean ====
section
/-! DEFINITION. What a well-formed record and a well-formed program are. Every term of `Instr` is well formed by its type:
a register operand is one of 16 registers (10_state.md R23, R86) and an immediate is 32 bits (R85). What can be
ill-formed is a raw record (a reserved opcode, R87; a field the opcode does not use that is not the canonical 0, R84) and
a configuration: its parameters, and a program that is too long (00_scope.md R6, R9). -/

namespace Sys2Proof

/-- R82: the opcode is one of the thirteen, not 0xD, 0xE or 0xF. -/
def Record.opcodeKnown (r : Record) : Bool := r.op.toNat < 13

/-- R83, the column of `rd`: MOVC to LOAD use the destination field. -/
def OpBits.usesRd (op : OpBits) : Bool := op.toNat < 8

/-- R83: the opcodes that use `rs1` are ADD to STORE. -/
def OpBits.usesRs1 (op : OpBits) : Bool := 1 ≤ op.toNat && op.toNat ≤ 8

/-- R83: the opcodes that use `rs2` are ADD to XOR, and STORE. -/
def OpBits.usesRs2 (op : OpBits) : Bool := (1 ≤ op.toNat && op.toNat ≤ 6) || op.toNat == 8

/-- R83: the opcodes that use `imm` are MOVC, LOAD and STORE. -/
def OpBits.usesImm (op : OpBits) : Bool := op.toNat == 0 || op.toNat == 7 || op.toNat == 8

/-- R84: every field the opcode does not use holds the canonical 0. -/
def Record.unusedFieldsZero (r : Record) : Bool :=
  (OpBits.usesRd r.op || r.rd == 0) && (OpBits.usesRs1 r.op || r.rs1 == 0)
    && (OpBits.usesRs2 r.op || r.rs2 == 0) && (OpBits.usesImm r.op || r.imm == 0)

/-- A canonical record of an instruction: what an encoder writes (R84). A record may be decoded without being so. -/
def Record.wellFormed (r : Record) : Bool := r.opcodeKnown && r.unusedFieldsZero

/-- The parameter values that the spec's other rules have a meaning for: as many registers as a register field has values
(R86; 60_exceptions.md R206), and a step by which the fetch index can be divided (40_pipeline.md R100). -/
def Params.supported (p : Params) : Bool := p.nregs == Config.nregs && p.pcStep != 0

/-- 00_scope.md R9: `P_PC_BASE + P_PC_STEP * N < 2^32`, so that `pc` cannot wrap. -/
def programLengthOk (p : Params) (n : Nat) : Bool := p.pcBase.toNat + p.pcStep.toNat * n < 2 ^ 32

/-- A configuration the model runs. -/
def configOk (p : Params) (n : Nat) : Bool := p.supported && programLengthOk p n

end Sys2Proof
end

