-- ==== Sys2Proof/Decode.lean ====
section
/-! DEFINITION. The decoder and the encoder of the 48-bit record format (30_encoding.md R80 to R89). -/

namespace Sys2Proof

/-- R81: the five fields of a record. Total on every 48-bit value; legality is not judged here. -/
def Record.ofWord (w : RecordWord) : Record where
  op := w.extractLsb' 44 4
  rd := (w.extractLsb' 40 4).toFin
  rs1 := (w.extractLsb' 36 4).toFin
  rs2 := (w.extractLsb' 32 4).toFin
  imm := w.extractLsb' 0 32

/-- R81: the word of a record, field by field. -/
def Record.toWord (r : Record) : RecordWord :=
  r.op ++ (BitVec.ofFin r.rd : BitVec 4) ++ (BitVec.ofFin r.rs1 : BitVec 4) ++ (BitVec.ofFin r.rs2 : BitVec 4) ++ r.imm

/-- Why a record stands for no instruction. -/
inductive DecodeError where
  /-- The opcode is 0xD, 0xE or 0xF (R87): Decode raises MALFORMED. -/
  | reservedOpcode (op : OpBits)
  deriving DecidableEq, Repr

/-- R82, R83: the instruction a record stands for; the fields its opcode does not use are ignored (R84). -/
def Record.instr (r : Record) : Except DecodeError Instr :=
  match r.op.toNat with
  | 0x0 => .ok (.movc r.rd r.imm)
  | 0x1 => .ok (.add r.rd r.rs1 r.rs2)
  | 0x2 => .ok (.sub r.rd r.rs1 r.rs2)
  | 0x3 => .ok (.mul r.rd r.rs1 r.rs2)
  | 0x4 => .ok (.and r.rd r.rs1 r.rs2)
  | 0x5 => .ok (.or r.rd r.rs1 r.rs2)
  | 0x6 => .ok (.xor r.rd r.rs1 r.rs2)
  | 0x7 => .ok (.load r.rd r.rs1 r.imm)
  | 0x8 => .ok (.store r.rs1 r.rs2 r.imm)
  | 0x9 => .ok .bz
  | 0xA => .ok .bnz
  | 0xB => .ok .jump
  | 0xC => .ok .halt
  | _ => .error (.reservedOpcode r.op)

/-- The instruction of a 48-bit word, or the reason there is none. -/
def decode (w : RecordWord) : Except DecodeError Instr := (Record.ofWord w).instr

/-- R82: the opcode value of each instruction. -/
def Instr.opcode : Instr → OpBits
  | .movc .. => 0x0
  | .add .. => 0x1
  | .sub .. => 0x2
  | .mul .. => 0x3
  | .and .. => 0x4
  | .or .. => 0x5
  | .xor .. => 0x6
  | .load .. => 0x7
  | .store .. => 0x8
  | .bz => 0x9
  | .bnz => 0xA
  | .jump => 0xB
  | .halt => 0xC

/-- The canonical record of an instruction, 0 in every field its opcode does not use (R84). -/
def Instr.toRecord (i : Instr) : Record :=
  match i with
  | .movc rd imm => ⟨i.opcode, rd, 0, 0, imm⟩
  | .add rd rs1 rs2 => ⟨i.opcode, rd, rs1, rs2, 0⟩
  | .sub rd rs1 rs2 => ⟨i.opcode, rd, rs1, rs2, 0⟩
  | .mul rd rs1 rs2 => ⟨i.opcode, rd, rs1, rs2, 0⟩
  | .and rd rs1 rs2 => ⟨i.opcode, rd, rs1, rs2, 0⟩
  | .or rd rs1 rs2 => ⟨i.opcode, rd, rs1, rs2, 0⟩
  | .xor rd rs1 rs2 => ⟨i.opcode, rd, rs1, rs2, 0⟩
  | .load rd rs1 imm => ⟨i.opcode, rd, rs1, 0, imm⟩
  | .store rs1 rs2 imm => ⟨i.opcode, 0, rs1, rs2, imm⟩
  | .bz => ⟨i.opcode, 0, 0, 0, 0⟩
  | .bnz => ⟨i.opcode, 0, 0, 0, 0⟩
  | .jump => ⟨i.opcode, 0, 0, 0, 0⟩
  | .halt => ⟨i.opcode, 0, 0, 0, 0⟩

/-- R84: the canonical 48-bit word of an instruction. -/
def encode (i : Instr) : RecordWord := i.toRecord.toWord

/-- The instruction the decoder reads from a table row's word: `w`'s low `nbits` bits, every bit above them 0. A record is
one 48-bit word, so the table's bit numbers are the record's (30_encoding.md R10, R81). -/
def decodeTableWord (nbits w : Nat) : Option Instr :=
  match decode (BitVec.ofNat 48 (w % 2 ^ nbits)) with
  | .ok i => some i
  | .error _ => none

end Sys2Proof
end

