-- ==== Sys2Proof/Machine/State.lean ====
section
/-! DEFINITION. All the state the spec gives the CORE (10_state.md), as plain data, and the state after reset (R43). -/

namespace Sys2Proof.Machine

/-- Why a step stops without a next state. Every fault of 60_exceptions.md is a NEXT state (fault entry, R210), so none of
them is here. -/
inductive Fault where
  /-- Raised by the Execute, Memory and Writeback steps when they act on a latch that holds a reserved opcode. The spec
  gives such an opcode no `writes(op)` and no action past Decode, where it raises MALFORMED (30_encoding.md R87), and no
  run reaches such a latch. Safe: the model stops where the spec says nothing. -/
  | reservedPastDecode
  deriving DecidableEq, Repr

/-- Why the model gives a step no meaning. -/
inductive Refusal where
  /-- Raised by an arm of `exec` whose instruction has no meaning yet; no arm uses it. Safe: nothing is claimed. -/
  | notModelled (mnemonic : String)
  /-- Raised by every step of a machine whose number of registers is not the 16 that the record format names, or whose
  `P_PC_STEP` is 0 (log entry 10). Safe: the spec has no rule for such a machine. -/
  | unsupportedParameters
  /-- Raised by every step of a machine whose program breaks `P_PC_BASE + P_PC_STEP * N < 2^32`: "a model refuses a
  configuration that breaks this" (00_scope.md R9). Safe: the spec itself asks for the refusal. -/
  | programTooLong
  deriving DecidableEq, Repr

/-- The driver FSM's states (40_pipeline.md R150). -/
inductive Status where
  | running
  | complete
  | faulted
  deriving DecidableEq, Repr

/-- The fault causes `fault_code` can hold (60_exceptions.md R201). -/
inductive FaultCode where
  | none
  | bounds
  | unimpl
  | sbInvariant
  | malformed
  deriving DecidableEq, Repr

/-- The five stage steps of a tick (40_pipeline.md R105). -/
inductive Stage where
  | writeback
  | memory
  | execute
  | decode
  | fetch
  deriving DecidableEq, Repr

/-- One stage latch, the fields of 10_state.md R39. -/
structure Latch where
  occ : Bool
  pc : Addr
  op : OpBits
  rd : Reg
  rs1 : Reg
  rs2 : Reg
  imm : Imm
  a : Word
  b : Word
  res : Word
  ea : Word33
  busy : Bool
  stalled : Bool
  deriving DecidableEq, Repr

/-- The reset value of every latch: all fields 0, a bubble (R43). -/
def Latch.empty : Latch := ⟨false, 0, 0, 0, 0, 0, 0, 0, 0, 0, 0, false, false⟩

/-- Data memory: the cells that do not hold the reset value 0, as (cell number, value) with cell numbers strictly rising
(R34; 20_memory.md R62: the cell is the smallest addressable unit). A cell that is not listed holds 0. -/
abbrev Memory := List (Nat × Word)

/-- The whole machine. -/
structure State where
  /-- `x[0..15]` (R20). -/
  regs : Vector Word Config.nregs
  /-- The scoreboard `V[0..15]`, true = valid (R30). -/
  valid : Vector Bool Config.nregs
  /-- The address of the next record Fetch will read (R24). -/
  pc : Addr
  /-- R29. -/
  status : Status
  /-- R29. -/
  faultCode : FaultCode
  /-- R29. -/
  faultPc : Addr
  /-- R29. -/
  faultInfo : Word33
  /-- Ticks taken in Running, modulo 2^32 (R29). -/
  clock : Count
  /-- Writeback actions (R29). -/
  retired : Count
  /-- `DM[0..P_DM_SIZE-1]` (R34). -/
  dm : Memory
  /-- `L.F` (R36). -/
  lF : Latch
  /-- `L.D` (R36). -/
  lD : Latch
  /-- `L.E` (R36). -/
  lE : Latch
  /-- `L.M` (R36). -/
  lM : Latch
  /-- `L.W` (R36). -/
  lW : Latch
  /-- The program store `Prog[0..N-1]` (R35), an input; `N` is its length (R31). -/
  prog : List RecordWord
  /-- The input `cfg_release` (40_pipeline.md R101). -/
  cfgRelease : Release
  /-- The input `cfg_unimpl` (40_pipeline.md R101). -/
  cfgUnimpl : Unimpl
  /-- The implementation parameters (00_scope.md R6), the same at every step. -/
  params : Params
  /-- The input `rst` (40_pipeline.md R102). -/
  rst : Bool
  /-- The model's own: the stage step of the tick that is running; `fetch`, the last one, between ticks. -/
  stage : Stage
  deriving DecidableEq, Repr

/-- The reset state of R43 for given inputs and parameters. `status` is Running if `N > 0`, and Complete otherwise (40_pipeline.md
R151). -/
def State.resetWith (prog : List RecordWord) (release : Release) (unimpl : Unimpl)
    (params : Params := Config.params) : State where
  regs := Vector.replicate _ 0
  valid := Vector.replicate _ true
  pc := params.pcBase
  status := if prog.length = 0 then .complete else .running
  faultCode := .none
  faultPc := 0
  faultInfo := 0
  clock := 0
  retired := 0
  dm := []
  lF := Latch.empty
  lD := Latch.empty
  lE := Latch.empty
  lM := Latch.empty
  lW := Latch.empty
  prog := prog
  cfgRelease := release
  cfgUnimpl := unimpl
  params := params
  rst := false
  stage := .fetch

/-- The machine right after reset, with no program presented (`N = 0`; DESIGN CHOICE, log entry 1) and the parameters at
their defaults (00_scope.md R6). -/
def State.reset : State := State.resetWith [] .ex .fault

end Sys2Proof.Machine
end

