-- ==== Sys2Proof/Machine/Ops.lean ====
section
/-! DEFINITION. The named operations over registers, scoreboard, data memory, program store and latches; fault entry and
its rollback (60_exceptions.md R210), and reset, the only way out of a fault (R214). -/

namespace Sys2Proof.Machine

/-- What one stage step, one tick or one clock edge answers. -/
abbrev Result := Host.Outcome State Fault Refusal

/-- `N`, the input `prog_len` (40_pipeline.md R101). -/
def State.progLen (s : State) : Nat := s.prog.length

/-- `x[r]` (00_scope.md R12). -/
def State.reg (s : State) (r : Reg) : Word := s.regs[r]

/-- `x[r] <- v`; no register is hard-wired (10_state.md R21). -/
def State.setReg (s : State) (r : Reg) (v : Word) : State := { s with regs := s.regs.set r v }

/-- `V[r]`, true = valid (R30). -/
def State.validAt (s : State) (r : Reg) : Bool := s.valid[r]

/-- `V[r] <- b`. -/
def State.setValid (s : State) (r : Reg) (b : Bool) : State := { s with valid := s.valid.set r b }

/-- `L.F <- l`. -/
def State.setF (s : State) (l : Latch) : State := { s with lF := l }

/-- `L.D <- l`. -/
def State.setD (s : State) (l : Latch) : State := { s with lD := l }

/-- `L.E <- l`. -/
def State.setE (s : State) (l : Latch) : State := { s with lE := l }

/-- `L.M <- l`. -/
def State.setM (s : State) (l : Latch) : State := { s with lM := l }

/-- `L.W <- l`. -/
def State.setW (s : State) (l : Latch) : State := { s with lW := l }

/-- `pc <- v`. -/
def State.setPc (s : State) (v : Addr) : State := { s with pc := v }

/-- The data memory as a whole, written by `storeCell` only. -/
def State.setDm (s : State) (m : Memory) : State := { s with dm := m }

/-- `retired <- retired + 1` (40_pipeline.md R115). -/
def State.retire (s : State) : State := { s with retired := s.retired + 1 }

/-- `clock <- (clock + 1) mod 2^32` (40_pipeline.md R107). -/
def State.countTick (s : State) : State := { s with clock := s.clock + 1 }

/-- `status <- v`. -/
def State.setStatus (s : State) (v : Status) : State := { s with status := v }

/-- The stage step `st` of the tick begins (R105). -/
def State.atStage (s : State) (st : Stage) : State := { s with stage := st }

/-! ### Data memory (20_memory.md) -/

/-- The value of cell `c`; a cell that is not listed holds the reset value 0 (10_state.md R34). -/
def Memory.read : Memory → Nat → Word
  | [], _ => 0#32
  | (a, v) :: m, c => if a = c then v else Memory.read m c

/-- Cell `c` takes the value `v`; the canonical form is kept, so writing 0 removes the entry. -/
def Memory.write : Memory → Nat → Word → Memory
  | [], c, v => if v = 0#32 then [] else [(c, v)]
  | (a, w) :: m, c, v =>
    if c < a then (if v = 0#32 then (a, w) :: m else (c, v) :: (a, w) :: m)
    else if c = a then (if v = 0#32 then m else (c, v) :: m)
    else (a, w) :: Memory.write m c v

/-- The entries from cell `lo` on: rising, below `size`, none holding what an unlisted cell reads as. -/
def Memory.wfFrom (size : Nat) : Nat → Memory → Bool
  | _, [] => true
  | lo, (a, v) :: m => decide (lo ≤ a) && decide (a < size) && decide (v ≠ 0#32) && Memory.wfFrom size (a + 1) m

/-- The canonical form of a data memory of `size` cells: equal memories are equal lists. -/
def Memory.wf (size : Nat) (m : Memory) : Bool := Memory.wfFrom size 0 m

/-- `inb(ea)` in a memory of `size = P_DM_SIZE` cells: `0 <= ea < P_DM_SIZE`, a signed comparison (20_memory.md R61). -/
def inBounds (size : Nat) (ea : Word33) : Bool := decide (0 ≤ ea.toInt) && decide (ea.toInt < (size : Int))

/-- The cell number of an effective address that is in bounds. -/
def cellOf (ea : Word33) : Nat := ea.toNat

/-- `MemRead(ea, 1)` (R61). -/
def State.loadCell (s : State) (ea : Word33) : Word := Memory.read s.dm (cellOf ea)

/-- `MemWrite(ea, 1, v)` (R61). -/
def State.storeCell (s : State) (ea : Word33) (v : Word) : State := s.setDm (Memory.write s.dm (cellOf ea) v)

/-! ### The program store (40_pipeline.md R100) -/

/-- `ps_index[31:0] = (pc - P_PC_BASE) / P_PC_STEP` (R100). The division is exact in every reachable state (10_state.md
R26); for another `pc` it rounds down, DESIGN CHOICE, log entry 7. -/
def fetchIndex (p : Params) (pc : Addr) : Nat := ((pc - p.pcBase) / p.pcStep).toNat

/-- `ps_rdata = Prog[ps_index]`, absent when `ps_index >= N` (R100). -/
def State.fetchWord? (s : State) : Option RecordWord := s.prog[fetchIndex s.params s.pc]?

/-- The raw record a latch holds. -/
def Latch.record (l : Latch) : Record := ⟨l.op, l.rd, l.rs1, l.rs2, l.imm⟩

/-- The latch Fetch loads from a record: computed fields and flags 0 (R136). -/
def Latch.ofRecord (pc : Addr) (r : Record) : Latch :=
  { occ := true, pc := pc, op := r.op, rd := r.rd, rs1 := r.rs1, rs2 := r.rs2, imm := r.imm,
    a := 0, b := 0, res := 0, ea := 0, busy := false, stalled := false }

/-- The bubble Fetch loads past the end of the program: its `pc` field is the current `pc` (R137). -/
def Latch.bubble (pc : Addr) : Latch := { Latch.empty with pc := pc }

/-- What Fetch loads into `L.F`: the record at the fetch index, or a bubble (R136, R137). -/
def State.fetchLatch (s : State) : Latch :=
  match s.fetchWord? with
  | some w => Latch.ofRecord s.pc (Record.ofWord w)
  | none => Latch.bubble s.pc

/-- The Fetch step (R135): load, then hand on to Decode and advance `pc` unless Decode is stalled (R138, R139). It does
nothing while the multiply FSM holds `L.F` (R140). -/
def fetchAct (s : State) : State :=
  if s.lF.busy || s.lF.stalled then s
  else
    let t := s.setF s.fetchLatch
    if t.lD.stalled then t
    else (if t.fetchWord?.isSome then t.setPc (t.pc + t.params.pcStep) else t).setD t.lF

/-! ### Fault entry (60_exceptions.md R210) and the way out of it -/

/-- `raise F(p, info)`: the cause, the pc of the latch and the recorded value (00_scope.md R12). -/
structure Raised where
  code : FaultCode
  pc : Addr
  info : Word33
  deriving DecidableEq, Repr

/-- Fault entry on `s0`, the state at the start of the faulting step: the fault registers are written, `clock` advances,
`status` becomes Faulted, and the tick is over (R210). Nothing else is saved and control goes nowhere (R213). -/
def takeFault (s0 : State) (f : Raised) : State :=
  { s0 with
    faultCode := f.code, faultPc := f.pc, faultInfo := f.info, clock := s0.clock + 1, status := .faulted,
    stage := .fetch }

/-- How a stage step that began in `s0` ends: its writes stand, or it raised and all of them are discarded (R210). -/
def settle (s0 : State) : Except Raised State → Result
  | .ok t => .next t
  | .error f => .next (takeFault s0 f)

/-- There is no trap return: Faulted and Complete are left by reset alone (R214; 40_pipeline.md R153). A clock edge with
`rst = 1` gives every piece of state its reset value and takes no tick; the inputs survive (R102; 70_reset_and_hazards.md
R230). -/
def resetEdge (s : State) : State := { State.resetWith s.prog s.cfgRelease s.cfgUnimpl s.params with rst := s.rst }

/-! ### Scoreboard procedures (40_pipeline.md R110, R111) -/

/-- `sb_acquire(r)` for the destination of a writer, nothing for another instruction (R112). -/
def acquire (dst : Option Reg) (s : State) : State :=
  match dst with
  | some r => s.setValid r false
  | none => s

/-- `zext_33` of a register index, the `fault_info` of SB_INVARIANT (60_exceptions.md R201). -/
def regInfo (r : Reg) : Word33 := BitVec.ofNat 33 r.val

/-- `zext_33` of an opcode, the `fault_info` of UNIMPL and MALFORMED (R201). -/
def opInfo (op : OpBits) : Word33 := op.setWidth 33

/-- `sb_release(r, p)`: a register that is already valid raises SB_INVARIANT (R110, R111). -/
def sbRelease (r : Reg) (p : Addr) (s : State) : Except Raised State :=
  if s.validAt r then .error ⟨.sbInvariant, p, regInfo r⟩ else .ok (s.setValid r true)

/-- The release of a writer's destination at the stage `P_RELEASE` selects, and nothing at the other one (R118). -/
def releaseAt (policy : Release) (r : Reg) (p : Addr) (s : State) : Except Raised State :=
  if s.cfgRelease = policy then sbRelease r p s else .ok s

end Sys2Proof.Machine
end

