-- ==== Sys2Proof/Machine/Operands.lean ====
section
/-! DEFINITION. Which registers an instruction reads and writes (30_encoding.md R83), the arithmetic notation of
00_scope.md R11, and the effective address (42_loadstore.md R180). -/

namespace Sys2Proof.Machine

/-- `s32(p)`: a pattern as a signed integer (00_scope.md R11). -/
def s32 (p : Word) : Int := p.toInt

/-- `wrap32(i)`: the 32-bit pattern congruent to `i` modulo 2^32 (R11). -/
def wrap32 (i : Int) : Word := BitVec.ofInt 32 i

/-- The exact signed sum of a base and an immediate, in 33 bits (42_loadstore.md R180): no wrap, no scaling. -/
def effectiveAddress (base : Word) (imm : Imm) : Word33 := BitVec.ofInt 33 (s32 base + s32 imm)

/-- `writes(op)`, with the register written (R83). -/
def dstOf : Instr → Option Reg
  | .movc rd _ => some rd
  | .add rd _ _ => some rd
  | .sub rd _ _ => some rd
  | .mul rd _ _ => some rd
  | .and rd _ _ => some rd
  | .or rd _ _ => some rd
  | .xor rd _ _ => some rd
  | .load rd _ _ => some rd
  | .store _ _ _ => none
  | .bz => none
  | .bnz => none
  | .jump => none
  | .halt => none

/-- `reads1(op)`, with the register read as `rs1` (R83). -/
def src1Of : Instr → Option Reg
  | .movc _ _ => none
  | .add _ rs1 _ => some rs1
  | .sub _ rs1 _ => some rs1
  | .mul _ rs1 _ => some rs1
  | .and _ rs1 _ => some rs1
  | .or _ rs1 _ => some rs1
  | .xor _ rs1 _ => some rs1
  | .load _ rs1 _ => some rs1
  | .store rs1 _ _ => some rs1
  | .bz => none
  | .bnz => none
  | .jump => none
  | .halt => none

/-- `reads2(op)`, with the register read as `rs2` (R83); LOAD does not read it (conflict C7). -/
def src2Of : Instr → Option Reg
  | .movc _ _ => none
  | .add _ _ rs2 => some rs2
  | .sub _ _ rs2 => some rs2
  | .mul _ _ rs2 => some rs2
  | .and _ _ rs2 => some rs2
  | .or _ _ rs2 => some rs2
  | .xor _ _ rs2 => some rs2
  | .load _ _ _ => none
  | .store _ rs2 _ => some rs2
  | .bz => none
  | .bnz => none
  | .jump => none
  | .halt => none

end Sys2Proof.Machine
end

