-- ==== Sys2Proof/Machine/Flags.lean ====
section
/-! DEFINITION. The CORE has no condition flags (10_state.md R27). Its only flag bits are `occ`, `busy` and `stalled` of the
latches; here are the conditions computed from them and from the scoreboard. -/

namespace Sys2Proof.Machine

/-- Memory and Writeback act on their latch when it is occupied, not busy and not stalled (40_pipeline.md R113, R116). -/
def Latch.acts (l : Latch) : Bool := l.occ && !l.busy && !l.stalled

/-- Execute acts on an occupied latch that is not a stalled copy; `busy` does not block it (R119). -/
def Latch.actsInExecute (l : Latch) : Bool := l.occ && !l.stalled

/-- The structural hazard `struct` of R127, read after this tick's Execute step (R128). -/
def structuralHazard (s : State) : Bool :=
  s.lE.occ && decide (s.lE.op = 0x3#4) && s.lE.busy && !s.lE.stalled

/-- An operand whose register has a write pending (R129). -/
def pending (s : State) : Option Reg → Bool
  | some r => !s.validAt r
  | none => false

/-- The data hazard `hz` of R127: a pending source, and under `P_RELEASE = WB` a pending destination (R129). -/
def dataHazard (src1 src2 dst : Option Reg) (s : State) : Bool :=
  pending s src1 || pending s src2 || (decide (s.cfgRelease = .wb) && pending s dst)

end Sys2Proof.Machine
end

