-- ==== Sys2Proof/Machine/Stages.lean ====
section
/-! DEFINITION. What an instruction does in each stage step, as operations the meanings share (40_pipeline.md R114, R117,
R123, R127). A meaning is one instruction's five stage actions; `State.stage` says which one runs (log entry 2). -/

namespace Sys2Proof.Machine

/-- The action of the stage step that is running, settled against the state it began in (60_exceptions.md R210). Fetch does
the same with every record (40_pipeline.md R135). -/
def perStage (atDecode atExecute atMemory atWriteback : State → Except Raised State) (s : State) : Result :=
  settle s <|
    match s.stage with
    | .fetch => .ok (fetchAct s)
    | .decode => atDecode s
    | .execute => atExecute s
    | .memory => atMemory s
    | .writeback => atWriteback s

/-- A resolved operand: the register if the opcode reads one, else what the field held (R130). -/
def operand (s : State) (src : Option Reg) (old : Word) : Word :=
  match src with
  | some r => s.reg r
  | none => old

/-- Decode of a legal instruction (R127): with a data hazard the latch is marked stalled and nothing is read (R131); else it
issues, reading its operands and then marking its destination pending (R112, R130). -/
def issue (src1 src2 dst : Option Reg) (s : State) : Except Raised State :=
  if dataHazard src1 src2 dst s then .ok (s.setD { s.lD with stalled := true })
  else
    .ok (acquire dst (s.setD
      { s.lD with stalled := false, a := operand s src1 s.lD.a, b := operand s src2 s.lD.b }))

/-- Decode of BZ, BNZ, JUMP or HALT: UNIMPL under `P_UNIMPL = Fault`, else an issue that reads and acquires nothing
(43_control.md R190). -/
def controlDecode (op : OpBits) (s : State) : Except Raised State :=
  match s.cfgUnimpl with
  | .fault => .error ⟨.unimpl, s.lD.pc, opInfo op⟩
  | .nop => issue none none none s

/-- Execute of a writer that completes in this tick: its release under `P_RELEASE = EX`, then its `ex_action` on `L.E`
(40_pipeline.md R123, R124). -/
def executeWriter (rd : Reg) (act : Latch → Latch) (s : State) : Except Raised State :=
  match releaseAt .ex rd s.lE.pc s with
  | .ok t => .ok (t.setE (act t.lE))
  | .error f => .error f

/-- Execute of an instruction that writes no register: its `ex_action` alone. -/
def executeNonWriter (act : Latch → Latch) (s : State) : Except Raised State := .ok (s.setE (act s.lE))

/-- No action in this stage: the latch passes on unchanged (R117; 43_control.md R190). -/
def passOn (s : State) : Except Raised State := .ok s

/-- The multiply FSM's start transition, IDLE to MUL_BUSY (R121). -/
def mulStart (s : State) : State :=
  ((s.setE { s.lE with busy := true }).setF { s.lF with stalled := true }).setD { s.lD with stalled := true }

/-- The flags of its finish transition, MUL_BUSY to IDLE (R122). -/
def mulFinish (s : State) : State :=
  ((s.setE { s.lE with busy := false }).setF { s.lF with stalled := false }).setD { s.lD with stalled := false }

/-- Execute of a two-tick writer: start, computing and releasing nothing, or finish and then release and compute (R123). -/
def executeTwoTicks (rd : Reg) (act : Latch → Latch) (s : State) : Except Raised State :=
  if s.lE.busy then executeWriter rd act (mulFinish s) else .ok (mulStart s)

/-- The bounds check of the Memory step, before any access: BOUNDS, or the access (42_loadstore.md R181). -/
def checkBounds (access : State → State) (s : State) : Except Raised State :=
  if inBounds s.params.dmSize s.lM.ea then .ok (access s) else .error ⟨.bounds, s.lM.pc, s.lM.ea⟩

/-- LOAD's access: the cell goes into the latch's `res` (R182). -/
def readIntoLatch (s : State) : State := s.setM { s.lM with res := s.loadCell s.lM.ea }

/-- STORE's access: the cell takes the first operand (R184). -/
def storeFromLatch (s : State) : State := s.storeCell s.lM.ea s.lM.a

/-- Writeback of a writer: its release under `P_RELEASE = WB`, the register write, and the retirement (40_pipeline.md
R114). -/
def commit (rd : Reg) (s : State) : Except Raised State :=
  match releaseAt .wb rd s.lW.pc s with
  | .ok t => .ok (t.setReg rd t.lW.res).retire
  | .error f => .error f

/-- Writeback of an instruction that writes no register: it retires (R115). -/
def retireOnly (s : State) : Except Raised State := .ok s.retire

end Sys2Proof.Machine
end

