-- ==== Sys2Proof/Machine/Alu.lean ====
section
/-! DEFINITION. The register and immediate ALU instructions (41_alu.md): each is a writer whose `ex_action` computes `res`
and whose Memory step does nothing (R161). -/

namespace Sys2Proof.Machine

/-- An ALU result goes into the latch's `res`; `ea` is not written (41_alu.md R161). -/
def withRes (v : Word) (l : Latch) : Latch := { l with res := v }

/-- MOVC (R160): `res <- imm`, no source read. -/
def execMovc (rd : Reg) (imm : Imm) (s : State) : Result :=
  perStage (issue none none (some rd)) (executeWriter rd fun l => withRes imm l) passOn (commit rd) s

/-- ADD (R162): `res <- wrap32(s32(a) + s32(b))`. -/
def execAdd (rd rs1 rs2 : Reg) (s : State) : Result :=
  perStage (issue (some rs1) (some rs2) (some rd))
    (executeWriter rd fun l => withRes (wrap32 (s32 l.a + s32 l.b)) l) passOn (commit rd) s

/-- SUB (R164): `res <- wrap32(s32(a) - s32(b))`. -/
def execSub (rd rs1 rs2 : Reg) (s : State) : Result :=
  perStage (issue (some rs1) (some rs2) (some rd))
    (executeWriter rd fun l => withRes (wrap32 (s32 l.a - s32 l.b)) l) passOn (commit rd) s

/-- MUL (R166): two Execute ticks; the second computes `res <- wrap32(s32(a) * s32(b))`. -/
def execMul (rd rs1 rs2 : Reg) (s : State) : Result :=
  perStage (issue (some rs1) (some rs2) (some rd))
    (executeTwoTicks rd fun l => withRes (wrap32 (s32 l.a * s32 l.b)) l) passOn (commit rd) s

/-- AND (R168): bitwise, on the 32-bit patterns. -/
def execAnd (rd rs1 rs2 : Reg) (s : State) : Result :=
  perStage (issue (some rs1) (some rs2) (some rd))
    (executeWriter rd fun l => withRes (l.a &&& l.b) l) passOn (commit rd) s

/-- OR (R170). -/
def execOr (rd rs1 rs2 : Reg) (s : State) : Result :=
  perStage (issue (some rs1) (some rs2) (some rd))
    (executeWriter rd fun l => withRes (l.a ||| l.b) l) passOn (commit rd) s

/-- XOR (R172). -/
def execXor (rd rs1 rs2 : Reg) (s : State) : Result :=
  perStage (issue (some rs1) (some rs2) (some rd))
    (executeWriter rd fun l => withRes (l.a ^^^ l.b) l) passOn (commit rd) s

end Sys2Proof.Machine
end

