-- ==== Sys2Proof/Machine/Control.lean ====
section
/-! DEFINITION. The recognised but unimplemented control opcodes (43_control.md R190): UNIMPL at Decode, or a retirement
with no effect. None changes `pc`, flushes a latch or stops Fetch (R190, R191). -/

namespace Sys2Proof.Machine

/-- BZ (R192). -/
def execBz (s : State) : Result := perStage (controlDecode 0x9) passOn passOn retireOnly s

/-- BNZ (R193). -/
def execBnz (s : State) : Result := perStage (controlDecode 0xA) passOn passOn retireOnly s

/-- JUMP (R194). -/
def execJump (s : State) : Result := perStage (controlDecode 0xB) passOn passOn retireOnly s

/-- HALT (R195): it does not stop the pipeline. -/
def execHalt (s : State) : Result := perStage (controlDecode 0xC) passOn passOn retireOnly s

end Sys2Proof.Machine
end

