-- ==== Sys2Proof/Machine/LoadStore.lean ====
section
/-! DEFINITION. LOAD and STORE (42_loadstore.md): Execute computes the effective address, Memory checks it and accesses one
cell. -/

namespace Sys2Proof.Machine

/-- The effective address goes into the latch's `ea` (R180). -/
def withEa (ea : Word33) (l : Latch) : Latch := { l with ea := ea }

/-- LOAD (R182): base `rs1`; a writer, so its destination is acquired and released like any other. -/
def execLoad (rd rs1 : Reg) (imm : Imm) (s : State) : Result :=
  perStage (issue (some rs1) none (some rd))
    (executeWriter rd fun l => withEa (effectiveAddress l.a imm) l) (checkBounds readIntoLatch) (commit rd) s

/-- STORE (R184): the value is `rs1`, the base is `rs2`; no register is written. -/
def execStore (rs1 rs2 : Reg) (imm : Imm) (s : State) : Result :=
  perStage (issue (some rs1) (some rs2) none)
    (executeNonWriter fun l => withEa (effectiveAddress l.b imm) l) (checkBounds storeFromLatch) retireOnly s

end Sys2Proof.Machine
end

