-- ==== Sys2Proof/Machine/Pipeline.lean ====
section
/-! DEFINITION. The tick (40_pipeline.md R105): the five stage steps in reverse pipeline order, each running `exec` of the
instruction its latch holds, with the copies between latches around it; and the clock edge (R102, R106). -/

namespace Sys2Proof.Machine

/-- The rest of the tick after a part of it: it runs unless that part raised a fault, which ends the tick (R105;
60_exceptions.md R210), or stopped. -/
def thenRunning (o : Result) (rest : State → Result) : Result :=
  match o with
  | .next t => if t.status = .running then rest t else .next t
  | .fault r => .fault r
  | .refused r => .refused r

/-- The instruction in latch `l` acts in stage `st`, past Decode. -/
def runLatch (l : Latch) (st : Stage) (s : State) : Result :=
  match l.record.instr with
  | .ok i => exec i (s.atStage st)
  | .error _ => .fault .reservedPastDecode

/-- The Writeback step (R114). It writes no latch. -/
def stepWB (s : State) : Result := if s.lW.acts then runLatch s.lW .writeback s else .next s

/-- The Memory step (R117): the copy into `L.W` is made every tick. -/
def stepMEM (s : State) : Result :=
  thenRunning (if s.lM.acts then runLatch s.lM .memory s else .next s) fun t => .next (t.setW t.lM)

/-- The Execute step (R123): the copy into `L.M` is made every tick (R125). -/
def stepEX (s : State) : Result :=
  thenRunning (if s.lE.actsInExecute then runLatch s.lE .execute s else .next s) fun t => .next (t.setM t.lE)

/-- The Decode step (R127): nothing under the structural hazard but the `stalled` mark; a bubble passes on (R134); a
reserved opcode raises MALFORMED (R133); an instruction acts, and its latch is copied into `L.E` (R132). -/
def stepDE (s : State) : Result :=
  if structuralHazard s then .next (s.setD { s.lD with stalled := true })
  else if s.lD.occ then
    match s.lD.record.instr with
    | .ok i => thenRunning (exec i (s.atStage .decode)) fun t => .next (t.setE t.lD)
    | .error _ => .next (takeFault s ⟨.malformed, s.lD.pc, opInfo s.lD.op⟩)
  else .next ((s.setD { s.lD with stalled := false }).setE { s.lD with stalled := false })

/-- The Fetch step (R135), the same for every record, legal or not. -/
def stepF (s : State) : Result :=
  match s.fetchWord?.map decode with
  | some (.ok i) => exec i (s.atStage .fetch)
  | _ => .next (fetchAct (s.atStage .fetch))

/-- The end of a tick that raised nothing: `clock` advances (R107) and the driver tests for completion (R152). -/
def endTick (s : State) : State :=
  if s.retired.toNat = s.progLen then s.countTick.setStatus .complete else s.countTick

/-- One tick in Running (R105). -/
def tick (s : State) : Result :=
  thenRunning (stepWB s) fun s1 =>
  thenRunning (stepMEM s1) fun s2 =>
  thenRunning (stepEX s2) fun s3 =>
  thenRunning (stepDE s3) fun s4 =>
  thenRunning (stepF s4) fun s5 => .next (endTick s5)

/-- One rising clock edge: a configuration the spec tells a model to refuse, or has no rule for, is refused (00_scope.md
R9; log entry 10); `rst = 1` resets
(40_pipeline.md R102); a tick in Complete or Faulted changes nothing (R106). -/
def clockEdge (s : State) : Result :=
  if s.params.supported then
    if programLengthOk s.params s.progLen then
      if s.rst then .next (resetEdge s)
      else
        match s.status with
        | .running => tick s
        | .complete => .next s
        | .faulted => .next s
    else .refused .programTooLong
  else .refused .unsupportedParameters

/-! ### Placing one instruction where the next tick fetches -/

/-- The program with the record at index `k` replaced; a shorter program is filled up with all-zero records. -/
def placeRecord : List RecordWord → Nat → RecordWord → List RecordWord
  | [], 0, w => [w]
  | _ :: ws, 0, w => w :: ws
  | [], k + 1, w => 0 :: placeRecord [] k w
  | v :: ws, k + 1, w => v :: placeRecord ws k w

/-- `s` with `w` as the record at the fetch index, running, out of reset, and with nothing in flight that could hold Fetch
(log entry 3). -/
def presentRecord (s : State) (w : RecordWord) : State :=
  { s with
    prog := placeRecord s.prog (fetchIndex s.params s.pc) w, status := .running, rst := false,
    lF := Latch.empty, lD := Latch.empty, lE := Latch.empty, lM := Latch.empty, lW := Latch.empty }

end Sys2Proof.Machine
end

