-- ==== Sys2Proof/Machine/Step.lean ====
section
/-! DEFINITION. One step of the machine is one rising clock edge (40_pipeline.md R102, R105), and the interface that places
one instruction for the next step to fetch. -/

namespace Sys2Proof.Machine

/-- One clock edge. -/
def step (s : State) : Host.Outcome State Fault Refusal := clockEdge s

/-- `s` with the record whose low `nbits` bits are `w` (0 above them) where the next tick's Fetch step reads. It stands for
the program load, which is outside the machine (00_scope.md R4; log entry 1). -/
def State.withFetchWord (s : State) (nbits w : Nat) : State := presentRecord s (BitVec.ofNat 48 (w % 2 ^ nbits))

end Sys2Proof.Machine
end

