-- ==== Sys2Proof/Machine/Ports.lean ====
section
/-! DEFINITION. The read-only output ports (40_pipeline.md R103; 60_exceptions.md R221): the encodings of the ports that are
not a field of State as it stands. Reading a port changes nothing. -/

namespace Sys2Proof.Machine

/-- `status[1:0]`: 0 Running, 1 Complete, 2 Faulted (10_state.md R29). -/
def statusPort (s : State) : BitVec 2 :=
  match s.status with
  | .running => 0
  | .complete => 1
  | .faulted => 2

/-- `fault_code[2:0]` (60_exceptions.md R201). -/
def faultCodePort (s : State) : BitVec 3 :=
  match s.faultCode with
  | .none => 0
  | .bounds => 1
  | .unimpl => 2
  | .sbInvariant => 3
  | .malformed => 4

/-- `valid[15:0]`: bit `r` is `V[r]`. -/
def validPort (s : State) : BitVec 16 := BitVec.ofFnLE fun r : Fin 16 => s.validAt r

/-- `dm_odata = DM[dm_oaddr]`, nothing when `dm_oaddr >= P_DM_SIZE` (R103). -/
def observeCell (s : State) (oaddr : BitVec 12) : Option Word :=
  if oaddr.toNat < s.params.dmSize then some (Memory.read s.dm oaddr.toNat) else none

/-- R154: the run ended well iff `status = Complete`. -/
def endedWell (s : State) : Bool := decide (s.status = .complete)

end Sys2Proof.Machine
end

