-- ==== Sys2Proof/Machine/Arbiter.lean ====
section
/-! DEFINITION. The tick as combinational next-state equations over the state before it (40_pipeline.md R141 to R144), with
the raise conditions that replace them by fault entry (60_exceptions.md R210, R211). The spec derives them from the stage
steps under the invariants of R156 and says a model may check its steps with them; `step` does not use them. -/

namespace Sys2Proof.Machine

/-- The register a latch's instruction writes, if it is a writer (30_encoding.md R83). -/
def latchDst (l : Latch) : Option Reg :=
  match l.record.instr with
  | .ok i => dstOf i
  | .error _ => none

/-- Whether a latch holds LOAD or STORE. -/
def accessesMemory (l : Latch) : Bool := decide (l.op = 0x7#4) || decide (l.op = 0x8#4)

/-- The `ex_action` of a latch's opcode (41_alu.md, 42_loadstore.md). -/
def exAction (l : Latch) : Latch :=
  match l.op.toNat with
  | 0x0 => { l with res := l.imm }
  | 0x1 => { l with res := l.a + l.b }
  | 0x2 => { l with res := l.a - l.b }
  | 0x3 => { l with res := l.a * l.b }
  | 0x4 => { l with res := l.a &&& l.b }
  | 0x5 => { l with res := l.a ||| l.b }
  | 0x6 => { l with res := l.a ^^^ l.b }
  | 0x7 => { l with ea := l.a.signExtend 33 + l.imm.signExtend 33 }
  | 0x8 => { l with ea := l.b.signExtend 33 + l.imm.signExtend 33 }
  | _ => l

/-- `mul_start` (R141); it is `struct` (R142). -/
def mulStarts (s : State) : Bool := s.lE.actsInExecute && decide (s.lE.op = 0x3#4) && !s.lE.busy

/-- `mul_fin` (R141). -/
def mulFinishes (s : State) : Bool := s.lE.actsInExecute && decide (s.lE.op = 0x3#4) && s.lE.busy

/-- `e_exec` (R141). -/
def eExecutes (s : State) : Bool := s.lE.actsInExecute && !mulStarts s

/-- The register Writeback writes in this tick (R114). -/
def wbWrites (s : State) : Option Reg := if s.lW.acts then latchDst s.lW else none

/-- The register a release of this tick makes valid: Writeback's under WB, Execute's under EX (R118). -/
def releases (s : State) : Option Reg :=
  match s.cfgRelease with
  | .wb => wbWrites s
  | .ex => if eExecutes s then latchDst s.lE else none

/-- The register file after this tick's Writeback. -/
def regsMid (s : State) : Vector Word Config.nregs :=
  match wbWrites s with
  | some r => s.regs.set r s.lW.res
  | none => s.regs

/-- `V_mid`: the scoreboard after this tick's releases (R142). -/
def validMid (s : State) : Vector Bool Config.nregs :=
  match releases s with
  | some r => s.valid.set r true
  | none => s.valid

/-- `V_mid[r] = 0` for a register that is checked. -/
def pendingMid (s : State) : Option Reg → Bool
  | some r => !(validMid s)[r]
  | none => false

/-- The registers Decode's instruction reads, as its two sources. -/
def latchSrcs (l : Latch) : Option Reg × Option Reg :=
  match l.record.instr with
  | .ok i => (src1Of i, src2Of i)
  | .error _ => (none, none)

/-- `d_hz` (R142). -/
def dataStall (s : State) : Bool :=
  !mulStarts s && s.lD.occ &&
    (pendingMid s (latchSrcs s.lD).1 || pendingMid s (latchSrcs s.lD).2
      || (decide (s.cfgRelease = .wb) && pendingMid s (latchDst s.lD)))

/-- `issue` (R143). -/
def issues (s : State) : Bool := !mulStarts s && s.lD.occ && !dataStall s

/-- `L.M+`: the Memory latch after its own action (R144). -/
def mPlus (s : State) : Latch :=
  if s.lM.acts && decide (s.lM.op = 0x7#4) then { s.lM with res := Memory.read s.dm s.lM.ea.toNat } else s.lM

/-- `L.E+` (R144). -/
def ePlus (s : State) : Latch :=
  if mulStarts s then { s.lE with busy := true }
  else if mulFinishes s then exAction { s.lE with busy := false }
  else if eExecutes s then exAction s.lE
  else s.lE

/-- The value Decode reads for a source, or what the field held. -/
def readMid (s : State) (src : Option Reg) (old : Word) : Word :=
  match src with
  | some r => (regsMid s)[r]
  | none => old

/-- `L.D+` when there is no structural hazard (R144): `stalled = d_hz`, operands read if it issues. -/
def dPlus (s : State) : Latch :=
  if issues s then
    { s.lD with stalled := false, a := readMid s (latchSrcs s.lD).1 s.lD.a, b := readMid s (latchSrcs s.lD).2 s.lD.b }
  else { s.lD with stalled := dataStall s }

/-- The scoreboard after the tick: an issuing writer's destination is pending (R112). -/
def validNext (s : State) : Vector Bool Config.nregs :=
  match (if issues s then latchDst s.lD else none) with
  | some r => (validMid s).set r false
  | none => validMid s

/-- Data memory after the tick. -/
def dmNext (s : State) : Memory :=
  if s.lM.acts && decide (s.lM.op = 0x8#4) then Memory.write s.dm s.lM.ea.toNat s.lM.a else s.dm

/-- `retired` after the tick. -/
def retiredNext (s : State) : Word := if s.lW.acts then s.retired + 1 else s.retired

/-- The advance mux of R144, and the state after a tick that raises nothing. -/
def combinationalTick (s : State) : State :=
  { s with
    regs := regsMid s
    valid := validNext s
    dm := dmNext s
    clock := s.clock + 1
    retired := retiredNext s
    status := if (retiredNext s).toNat = s.progLen then .complete else s.status
    lW := mPlus s
    lM := ePlus s
    lE := if mulStarts s then ePlus s else dPlus s
    lD := if mulStarts s then { s.lD with stalled := true } else if dataStall s then dPlus s else s.fetchLatch
    lF := if mulStarts s then { s.lF with stalled := true } else s.fetchLatch
    pc := if !mulStarts s && !dataStall s && decide (fetchIndex s.params s.pc < s.progLen) then s.pc + s.params.pcStep else s.pc
    stage := .fetch }

/-! ### The raise conditions, in step order (60_exceptions.md R211) -/

/-- A release that would find its register already valid. -/
def doubleRelease (s : State) : Option Reg → Bool
  | some r => s.validAt r
  | none => false

/-- Writeback raises SB_INVARIANT: a release under WB of a register already valid (R205). -/
def wbRaises (s : State) : Bool := decide (s.cfgRelease = .wb) && doubleRelease s (wbWrites s)

/-- Memory raises BOUNDS (R202). -/
def memRaises (s : State) : Bool := s.lM.acts && accessesMemory s.lM && !inBounds s.params.dmSize s.lM.ea

/-- Execute raises SB_INVARIANT: a release under EX of a register already valid (R205). -/
def exRaises (s : State) : Bool :=
  decide (s.cfgRelease = .ex) && doubleRelease s (if eExecutes s then latchDst s.lE else none)

/-- Decode processes its latch: occupied, no structural hazard (40_pipeline.md R133). -/
def decodeProcesses (s : State) : Bool := s.lD.occ && !mulStarts s

/-- Decode raises MALFORMED (R204). -/
def malformedRaises (s : State) : Bool := decodeProcesses s && decide (13 ≤ s.lD.op.toNat)

/-- Decode raises UNIMPL (R203). -/
def unimplRaises (s : State) : Bool :=
  decodeProcesses s && decide (s.cfgUnimpl = .fault) && decide (9 ≤ s.lD.op.toNat) && decide (s.lD.op.toNat ≤ 12)

/-- The one fault of the tick, the first in step order (R211), with what it records (R201). -/
def firstRaise (s : State) : Option Raised :=
  if wbRaises s then some ⟨.sbInvariant, s.lW.pc, regInfo s.lW.rd⟩
  else if memRaises s then some ⟨.bounds, s.lM.pc, s.lM.ea⟩
  else if exRaises s then some ⟨.sbInvariant, s.lE.pc, regInfo s.lE.rd⟩
  else if malformedRaises s then some ⟨.malformed, s.lD.pc, opInfo s.lD.op⟩
  else if unimplRaises s then some ⟨.unimpl, s.lD.pc, opInfo s.lD.op⟩
  else none

end Sys2Proof.Machine
end

