-- ==== Sys2Proof/Machine/Sequential.lean ====
section
/-! DEFINITION. Sequential execution, the reference that `P_RELEASE = WB` meets (70_reset_and_hazards.md R241), and the
architectural state a pipeline state stands for: what is left when the issued instructions have finished. -/

namespace Sys2Proof.Machine

/-- What a program computes: the register file and the data memory. -/
structure Arch where
  regs : Vector Word Config.nregs
  dm : Memory
  deriving DecidableEq, Repr

/-- What Writeback commits. -/
def wbEffect (l : Latch) (a : Arch) : Arch :=
  match latchDst l with
  | some r => { a with regs := a.regs.set r l.res }
  | none => a

/-- The Memory and Writeback stages of one latch, over `size` cells of data memory. An access out of bounds has no effect: its tick faults, and the
instruction never writes back (60_exceptions.md R202). -/
def memThenWb (size : Nat) (l : Latch) (a : Arch) : Arch :=
  if accessesMemory l then
    if inBounds size l.ea then
      if l.op = 0x7#4 then wbEffect { l with res := Memory.read a.dm l.ea.toNat } a
      else { a with dm := Memory.write a.dm l.ea.toNat l.a }
    else a
  else wbEffect l a

/-- One instruction's whole effect, sequentially: operands from `a`, then Execute, Memory and Writeback. -/
def seqExec (size : Nat) (i : Instr) (a : Arch) : Arch :=
  let l := Latch.ofRecord 0 i.toRecord
  let read := fun (src : Option Reg) => match src with
    | some r => a.regs[r]
    | none => 0
  memThenWb size (exAction { l with a := read (src1Of i), b := read (src2Of i) }) a

/-- The architectural state once the issued instructions in `L.W`, `L.M` and `L.E` have finished, in program order. -/
def flushed (s : State) : Arch :=
  let a0 : Arch := ⟨s.regs, s.dm⟩
  let a1 := if s.lW.acts then wbEffect s.lW a0 else a0
  let a2 := if s.lM.acts then memThenWb s.params.dmSize s.lM a1 else a1
  if s.lE.actsInExecute then memThenWb s.params.dmSize (exAction s.lE) a2 else a2

/-- The sequential result of a list of records: each legal one in turn (a reserved record has no effect; a run that holds
one never completes, 60_exceptions.md R204). -/
def seqRun (size : Nat) : List RecordWord → Arch → Arch
  | [], a => a
  | w :: ws, a =>
    match decode w with
    | .ok i => seqRun size ws (seqExec size i a)
    | .error _ => seqRun size ws a

end Sys2Proof.Machine
end

