-- ==== Sys2Proof/Safety.lean ====
section
/-! DEFINITION. What counts as a good state and a good run of the CORE, in the terms the statements use: the invariants the
spec derives for reachable states (10_state.md R26; 40_pipeline.md R156, R157, R159), and the tick counts of R158. -/

namespace Sys2Proof.Machine

/-- The next clock edge takes a tick in Running: `rst = 0`, a configuration the model does not refuse (00_scope.md R6, R9). -/
abbrev Ticks (s : State) : Prop := s.status = .running ∧ s.rst = false ∧ configOk s.params s.progLen = true

/-- The invariants of the multiply FSM and the stall flags, 40_pipeline.md R156 (a), (b), (c). -/
structure FsmInv (s : State) : Prop where
  busyE : s.lE.busy = true → s.lE.occ = true ∧ s.lE.op = 0x3#4 ∧ s.lE.stalled = false
  stalledF : s.lF.stalled = s.lE.busy
  idleF : s.lF.busy = false
  idleD : s.lD.busy = false

/-- Between ticks `L.D` holds what Fetch loaded: the computed fields are still 0 (R131, R136). -/
abbrev DecodeLatchFresh (s : State) : Prop := s.lD.a = 0 ∧ s.lD.b = 0 ∧ s.lD.res = 0 ∧ s.lD.ea = 0

/-- No latch past Decode acts on a reserved opcode: Decode raised MALFORMED on it (30_encoding.md R87). -/
structure LegalPastDecode (s : State) : Prop where
  legalE : s.lE.actsInExecute = true → s.lE.op.toNat < 13
  legalM : s.lM.acts = true → s.lM.op.toNat < 13
  legalW : s.lW.acts = true → s.lW.op.toNat < 13

/-- 10_state.md R26: `pc` is `P_PC_BASE + P_PC_STEP * k` for some `k` with `0 <= k <= N`. -/
abbrev PcInRange (s : State) : Prop :=
  fetchIndex s.params s.pc ≤ s.progLen ∧ s.pc = s.params.pcBase + s.params.pcStep * BitVec.ofNat 32 (fetchIndex s.params s.pc)

/-- Whether latch `l`, if it acts, is an issued writer of `r` not yet released. -/
def holdsWriter (acts : Bool) (l : Latch) (r : Reg) : Nat := if acts && decide (latchDst l = some r) then 1 else 0

/-- How many instructions have been issued as a writer of `r` and not yet released (40_pipeline.md R157): under EX the one
Execute has still to release, under WB the ones Writeback has. -/
def pendingWriters (s : State) (r : Reg) : Nat :=
  match s.cfgRelease with
  | .ex => holdsWriter s.lE.actsInExecute s.lE r
  | .wb => holdsWriter s.lE.actsInExecute s.lE r + holdsWriter s.lM.acts s.lM r + holdsWriter s.lW.acts s.lW r

/-- Scoreboard conservation (R157): `V[r] = 0` iff exactly one such instruction is in flight, and never two. -/
abbrev ScoreboardConserved (s : State) : Prop := ∀ r : Reg, pendingWriters s r = if s.validAt r then 0 else 1

/-- The instructions fetched and not yet retired: one waiting in `L.D`, and one in each later latch that holds work. -/
def inFlight (s : State) : Nat :=
  s.lD.occ.toNat + s.lE.actsInExecute.toNat + s.lM.acts.toNat + s.lW.acts.toNat

/-- Every fetched instruction has retired or is in flight, once (R155, R159). -/
abbrev FetchedOnce (s : State) : Prop := s.retired.toNat + inFlight s = fetchIndex s.params s.pc

/-- The driver FSM agrees with `retired` (R151, R152) and with the fault registers (60_exceptions.md R201); SB_INVARIANT has
not been raised (R157, R205). -/
structure DriverInv (s : State) : Prop where
  retiredLe : s.retired.toNat ≤ s.progLen
  runningLt : s.status = .running → s.retired.toNat < s.progLen
  completeEq : s.status = .complete → s.retired.toNat = s.progLen
  faultedIff : s.status = .faulted ↔ s.faultCode ≠ .none
  noDoubleRelease : s.faultCode ≠ .sbInvariant

/-- The invariant of every reachable state. After a fault the latches are no longer a result (R212), so the two counting
clauses speak of states that are not Faulted. -/
structure Inv (s : State) : Prop where
  config : configOk s.params s.progLen = true
  memory : Memory.wf s.params.dmSize s.dm = true
  pcInRange : PcInRange s
  fsm : FsmInv s
  legal : LegalPastDecode s
  freshD : DecodeLatchFresh s
  driver : DriverInv s
  scoreboard : s.status ≠ .faulted → ScoreboardConserved s
  fetchedOnce : s.status ≠ .faulted → FetchedOnce s
  atRest : s.stage = .fetch

/-- Whether a record's opcode is MUL. -/
def isMulRecord (w : RecordWord) : Bool := decide ((Record.ofWord w).op = 0x3#4)

/-- `m`, the number of MUL records of a program (40_pipeline.md R158). -/
def mulCount (ws : List RecordWord) : Nat := ws.countP isMulRecord

/-- The ticks a fault-free run under `P_RELEASE = EX` still takes: one for each record still to be fetched, four for the
last instruction to leave, and one for each MUL that has still to start (R158, R234, R235). -/
def ticksLeft (s : State) : Nat :=
  let mulD := (s.lD.occ && decide (s.lD.op = 0x3#4)).toNat
  let mulE := (mulStarts s).toNat
  if fetchIndex s.params s.pc < s.progLen then
    (s.progLen - fetchIndex s.params s.pc) + 4 + mulCount (s.prog.drop (fetchIndex s.params s.pc)) + mulD + mulE
  else if s.lD.occ then 4 + mulD + mulE
  else if s.lE.actsInExecute then 3 + mulE
  else if s.lM.acts then 2
  else if s.lW.acts then 1
  else 0

/-- The stage actions still to come, weighed so that an instruction's move to the next stage, and the start of a MUL, each
take one or more away (40_pipeline.md R108 (e), R121; 70_reset_and_hazards.md R244). -/
def workLeft (s : State) : Nat :=
  6 * (s.progLen - fetchIndex s.params s.pc) + (if s.lD.occ then 5 else 0)
    + (if s.lE.actsInExecute then (if mulStarts s then 4 else 3) else 0)
    + (if s.lM.acts then 2 else 0) + (if s.lW.acts then 1 else 0)

/-- `i` waits in `L.D` with nothing ahead of it in the pipeline and nothing left to fetch behind it. -/
structure AloneInDecode (i : Instr) (s : State) : Prop where
  inv : Inv s
  ticks : Ticks s
  nothingToFetch : fetchIndex s.params s.pc = s.progLen
  waiting : s.lD.occ = true
  holds : s.lD.record.instr = .ok i
  emptyE : s.lE.actsInExecute = false
  emptyM : s.lM.acts = false
  emptyW : s.lW.acts = false

/-- The four control opcodes (43_control.md). -/
def isControl : Instr → Bool
  | .bz => true
  | .bnz => true
  | .jump => true
  | .halt => true
  | _ => false

/-- What an ALU instruction computes from its operands, on 32-bit patterns (41_alu.md R160 to R172); `none` for the
instructions of the other families. -/
def aluResult : Instr → Word → Word → Option Word
  | .movc _ imm, _, _ => some imm
  | .add _ _ _, a, b => some (a + b)
  | .sub _ _ _, a, b => some (a - b)
  | .mul _ _ _, a, b => some (a * b)
  | .and _ _ _, a, b => some (a &&& b)
  | .or _ _ _, a, b => some (a ||| b)
  | .xor _ _ _, a, b => some (a ^^^ b)
  | _, _, _ => none

/-- The Execute ticks an instruction takes: MUL is the only one that takes two (41_alu.md R166). -/
def executeTicks : Instr → Nat
  | .mul _ _ _ => 2
  | _ => 1

end Sys2Proof.Machine
end

