-- ==== Sys2Proof/Certificates/Slice0/Obligations.lean ====
section
/-! DEFINITION. The statements about the CORE, from the numbered rules of spec/. A statement about `exec` names the stage
step it speaks of by `State.stage`, the model's own field (log entry 2);
`EachStageStepRunsTheInstructionInItsLatch` ties it to the steps of the tick. -/

open Sys2Proof Sys2Proof.Machine

/-! ### A step runs the instructions in flight -/

/-- With nothing in flight, a step is `exec` of the instruction whose record stands at the fetch index, at its Fetch stage
(the model's stage cursor, log entry 2), then the end of the tick: the record goes into `L.F` and `L.D`, and `pc` advances
by `P_PC_STEP` (40_pipeline.md R105, R135, R136, R139). -/
def Obligations.StepOnAnEmptyPipelineRunsTheFetchedInstruction : Prop :=
  ∀ (s : State) (w : RecordWord) (i : Instr),
    Ticks s → s.stage = .fetch →
    s.lF = Latch.empty → s.lD = Latch.empty → s.lE = Latch.empty → s.lM = Latch.empty → s.lW = Latch.empty →
    s.fetchWord? = some w → decode w = .ok i →
    let l := Latch.ofRecord s.pc (Record.ofWord w)
    let t := { s with lF := l, lD := l, pc := s.pc + s.params.pcStep }
    exec i s = .next t ∧ step s = .next (endTick t) ∧ t.lD.record.instr = .ok i

/-- In every tick each stage step is `exec` of the instruction its latch holds, at that stage (log entry 2), with that
stage's copy around it, and the step is the five of them in reverse pipeline order (R105, R114, R117, R123, R127, R135). -/
def Obligations.EachStageStepRunsTheInstructionInItsLatch : Prop :=
  ∀ (s : State) (i : Instr),
    (s.lW.acts = true → s.lW.record.instr = .ok i → stepWB s = exec i (s.atStage .writeback)) ∧
    (s.lM.acts = true → s.lM.record.instr = .ok i →
      stepMEM s = thenRunning (exec i (s.atStage .memory)) fun t => .next { t with lW := t.lM }) ∧
    (s.lE.actsInExecute = true → s.lE.record.instr = .ok i →
      stepEX s = thenRunning (exec i (s.atStage .execute)) fun t => .next { t with lM := t.lE }) ∧
    (structuralHazard s = false → s.lD.occ = true → s.lD.record.instr = .ok i →
      stepDE s = thenRunning (exec i (s.atStage .decode)) fun t => .next { t with lE := t.lD }) ∧
    (∀ w, s.fetchWord? = some w → decode w = .ok i → stepF s = exec i (s.atStage .fetch)) ∧
    (Ticks s →
      step s =
        thenRunning (stepWB s) fun s1 => thenRunning (stepMEM s1) fun s2 => thenRunning (stepEX s2) fun s3 =>
          thenRunning (stepDE s3) fun s4 => thenRunning (stepF s4) fun s5 => .next (endTick s5))

/-! ### Encoding -/

/-- R81: the record format, bit position by bit position, and `encode(decode(w)) = w`. -/
def Obligations.RecordFormatAndWordRoundTrip : Prop :=
  ∀ w : RecordWord,
    (Record.ofWord w).op.toNat = w.toNat / 2 ^ 44 ∧
    (Record.ofWord w).rd.val = w.toNat / 2 ^ 40 % 16 ∧
    (Record.ofWord w).rs1.val = w.toNat / 2 ^ 36 % 16 ∧
    (Record.ofWord w).rs2.val = w.toNat / 2 ^ 32 % 16 ∧
    (Record.ofWord w).imm.toNat = w.toNat % 2 ^ 32 ∧
    (Record.ofWord w).toWord = w

/-- Decode and encode agree on every instruction, at every operand (30_encoding.md R81 to R84). -/
def Obligations.DecodeOfEncodeIsTheInstruction : Prop := ∀ i : Instr, decode (encode i) = .ok i

/-- R82, R83, R84: a record decodes to the instruction of its opcode, and the encoder's record of that instruction has the
same opcode, the same used fields, and 0 in every unused one. -/
def Obligations.DecodingKeepsTheUsedFieldsAndIgnoresTheRest : Prop :=
  ∀ (r : Record) (i : Instr), r.instr = .ok i →
    i.toRecord =
      { op := r.op
        rd := if OpBits.usesRd r.op then r.rd else 0
        rs1 := if OpBits.usesRs1 r.op then r.rs1 else 0
        rs2 := if OpBits.usesRs2 r.op then r.rs2 else 0
        imm := if OpBits.usesImm r.op then r.imm else 0 }

/-- R82, R87: exactly the opcodes 0xD, 0xE and 0xF name no instruction. -/
def Obligations.ExactlyTheReservedOpcodesDecodeToNothing : Prop :=
  ∀ r : Record, r.instr = .error (.reservedOpcode r.op) ↔ r.op = 0xD#4 ∨ r.op = 0xE#4 ∨ r.op = 0xF#4

/-- Words written out in 95_test_vectors.md, section "Encoding vectors", decode to the instructions they stand for. -/
def Obligations.WrittenOutWordsDecode : Prop :=
  decode 0x0F00FFFFFFFF#48 = .ok (.movc 15 0xFFFFFFFF#32) ∧
  decode 0x017300000005#48 = .ok (.movc 1 5#32) ∧
  decode 0x245600000000#48 = .ok (.sub 4 5 6) ∧
  decode 0x7230FFFFFFFC#48 = .ok (.load 2 3 0xFFFFFFFC#32) ∧
  decode 0x80127FFFFFFF#48 = .ok (.store 1 2 0x7FFFFFFF#32) ∧
  decode 0x900000000008#48 = .ok .bz ∧
  decode 0xE12345678ABC#48 = .error (.reservedOpcode 0xE#4)

/-! ### Decode -/

/-- An instruction of the nine implemented ones whose sources are valid (and under WB its destination) issues: its operands
are read, then its destination is marked pending, and nothing else changes (40_pipeline.md R112, R127, R130). -/
def Obligations.LegalInstructionIssues : Prop :=
  ∀ (i : Instr) (s : State),
    isControl i = false → s.stage = .decode →
    (∀ r, src1Of i = some r ∨ src2Of i = some r → s.validAt r = true) →
    (s.cfgRelease = .wb → ∀ r, dstOf i = some r → s.validAt r = true) →
    exec i s = .next
      { s with
        lD := { s.lD with
          stalled := false
          a := match src1Of i with
            | some r => s.regs[r]
            | none => s.lD.a
          b := match src2Of i with
            | some r => s.regs[r]
            | none => s.lD.b }
        valid := match dstOf i with
          | some r => s.valid.set r false
          | none => s.valid }

/-- A pending source, and under WB a pending destination, stalls Decode: the latch is marked and nothing is read, acquired
or otherwise changed (R129, R131). -/
def Obligations.DataHazardOnlyMarksTheLatchStalled : Prop :=
  ∀ (i : Instr) (s : State) (r : Reg),
    isControl i = false → s.stage = .decode → s.validAt r = false →
    (src1Of i = some r ∨ src2Of i = some r ∨ (s.cfgRelease = .wb ∧ dstOf i = some r)) →
    exec i s = .next { s with lD := { s.lD with stalled := true } }

/-! ### Execute -/

/-- MOVC, ADD, SUB, AND, OR and XOR compute `res` in one Execute tick and, under `P_RELEASE = EX`, release their destination
in it; nothing else changes (41_alu.md; 40_pipeline.md R123, R124). -/
def Obligations.SingleTickAluInstructionsExecute : Prop :=
  ∀ (i : Instr) (s : State) (rd : Reg) (v : Word),
    executeTicks i = 1 → dstOf i = some rd → aluResult i s.lE.a s.lE.b = some v → s.stage = .execute →
    (s.cfgRelease = .ex → s.validAt rd = false) →
    exec i s = .next
      { s with
        lE := { s.lE with res := v }
        valid := if s.cfgRelease = .ex then s.valid.set rd true else s.valid }

/-- MUL's first Execute tick starts the multiply FSM and computes and releases nothing; its second ends it, computes the low
32 bits of the product and makes the release (R121, R122; 41_alu.md R166). -/
def Obligations.MultiplyTakesTwoExecuteTicks : Prop :=
  ∀ (s : State) (rd rs1 rs2 : Reg), s.stage = .execute →
    (s.lE.busy = false →
      exec (.mul rd rs1 rs2) s = .next
        { s with
          lE := { s.lE with busy := true }, lF := { s.lF with stalled := true }, lD := { s.lD with stalled := true } }) ∧
    (s.lE.busy = true → (s.cfgRelease = .ex → s.validAt rd = false) →
      exec (.mul rd rs1 rs2) s = .next
        { s with
          lE := { s.lE with busy := false, res := s.lE.a * s.lE.b }
          lF := { s.lF with stalled := false }
          lD := { s.lD with stalled := false }
          valid := if s.cfgRelease = .ex then s.valid.set rd true else s.valid })

/-- R180: the effective address is the exact signed sum of base and immediate, `rs1`'s value for LOAD and `rs2`'s for STORE;
nothing else changes but LOAD's release. -/
def Obligations.LoadAndStoreComputeTheExactAddress : Prop :=
  ∀ (s : State) (rd rs1 rs2 : Reg) (imm : Word), s.stage = .execute →
    ((s.cfgRelease = .ex → s.validAt rd = false) →
      ∃ ea : Word33, ea.toInt = s.lE.a.toInt + imm.toInt ∧ -2 ^ 32 ≤ ea.toInt ∧ ea.toInt ≤ 2 ^ 32 - 2 ∧
        exec (.load rd rs1 imm) s = .next
          { s with
            lE := { s.lE with ea := ea }
            valid := if s.cfgRelease = .ex then s.valid.set rd true else s.valid }) ∧
    (∃ ea : Word33, ea.toInt = s.lE.b.toInt + imm.toInt ∧ -2 ^ 32 ≤ ea.toInt ∧ ea.toInt ≤ 2 ^ 32 - 2 ∧
      exec (.store rs1 rs2 imm) s = .next { s with lE := { s.lE with ea := ea } })

/-! ### Memory -/

/-- A LOAD in bounds copies its cell into the latch's result; nothing else changes (42_loadstore.md R182; 20_memory.md
R64). -/
def Obligations.LoadReadsItsCell : Prop :=
  ∀ (s : State) (rd rs1 : Reg) (imm : Word), s.stage = .memory → 0 ≤ s.lM.ea.toInt → s.lM.ea.toInt < s.params.dmSize →
    exec (.load rd rs1 imm) s = .next { s with lM := { s.lM with res := Memory.read s.dm s.lM.ea.toInt.toNat } }

/-- A STORE in bounds puts its first operand into the cell at its effective address; every other cell, and everything else,
is as before, and the memory stays canonical (R184; 20_memory.md R64). -/
def Obligations.StoreWritesItsCell : Prop :=
  ∀ (s : State) (rs1 rs2 : Reg) (imm : Word),
    s.stage = .memory → Memory.wf s.params.dmSize s.dm = true → 0 ≤ s.lM.ea.toInt → s.lM.ea.toInt < s.params.dmSize →
    ∃ m : Memory, exec (.store rs1 rs2 imm) s = .next { s with dm := m } ∧ Memory.wf s.params.dmSize m = true ∧
      ∀ c, Memory.read m c = if c = s.lM.ea.toInt.toNat then s.lM.a else Memory.read s.dm c

/-- A LOAD or STORE out of bounds makes no access: the Memory step raises BOUNDS with its latch's pc and address (R181;
60_exceptions.md R202, R210). -/
def Obligations.OutOfBoundsAccessRaisesBounds : Prop :=
  ∀ (i : Instr) (s : State), i.opcode = 0x7#4 ∨ i.opcode = 0x8#4 → s.stage = .memory →
    (s.lM.ea.toInt < 0 ∨ s.params.dmSize ≤ s.lM.ea.toInt) →
    exec i s = .next
      { s with
        faultCode := .bounds, faultPc := s.lM.pc, faultInfo := s.lM.ea, clock := s.clock + 1, status := .faulted,
        stage := .fetch }

/-- Every instruction but LOAD and STORE passes the Memory step unchanged (40_pipeline.md R117). -/
def Obligations.OtherInstructionsPassTheMemoryStep : Prop :=
  ∀ (i : Instr) (s : State), i.opcode ≠ 0x7#4 → i.opcode ≠ 0x8#4 → s.stage = .memory → exec i s = .next s

/-- LOAD after STORE to the same cell reads the stored value (R186): both accesses are Memory steps, in program order. -/
def Obligations.LoadAfterStoreReadsTheStoredValue : Prop :=
  ∀ (s : State) (l : Latch) (rd base rs1 rs2 : Reg) (imm imm' : Word),
    s.stage = .memory → Memory.wf s.params.dmSize s.dm = true → 0 ≤ s.lM.ea.toInt → s.lM.ea.toInt < s.params.dmSize → l.ea = s.lM.ea →
    ∃ t u, exec (.store rs1 rs2 imm) s = .next t ∧ exec (.load rd base imm') { t with lM := l } = .next u ∧
      u.lM.res = s.lM.a

/-! ### Writeback -/

/-- A writer commits its result to its destination, no register being special, retires, and under `P_RELEASE = WB` releases
the destination; nothing else changes (R114, R115, R118; 10_state.md R21). -/
def Obligations.WritersCommitAndRetire : Prop :=
  ∀ (i : Instr) (s : State) (rd : Reg), dstOf i = some rd → s.stage = .writeback →
    (s.cfgRelease = .wb → s.validAt rd = false) →
    exec i s = .next
      { s with
        regs := s.regs.set rd s.lW.res
        retired := s.retired + 1
        valid := if s.cfgRelease = .wb then s.valid.set rd true else s.valid }

/-- STORE and the control opcodes write no register and still retire (R115; 42_loadstore.md R184). -/
def Obligations.NonWritersOnlyRetire : Prop :=
  ∀ (i : Instr) (s : State), dstOf i = none → s.stage = .writeback → exec i s = .next { s with retired := s.retired + 1 }

/-! ### Control opcodes -/

/-- Under `P_UNIMPL = Fault`, BZ, BNZ, JUMP and HALT raise UNIMPL at Decode, and nothing of them takes effect (43_control.md
R190; 60_exceptions.md R203, R210). -/
def Obligations.ControlOpcodesRaiseUnimplUnderFault : Prop :=
  ∀ (i : Instr) (s : State), isControl i = true → s.stage = .decode → s.cfgUnimpl = .fault →
    exec i s = .next
      { s with
        faultCode := .unimpl, faultPc := s.lD.pc, faultInfo := i.opcode.setWidth 33, clock := s.clock + 1,
        status := .faulted, stage := .fetch }

/-- Under `P_UNIMPL = Nop` they issue with no read, no acquire and no hazard, and pass Execute and Memory with no action;
Writeback then only retires them (R190). -/
def Obligations.ControlOpcodesAreInertUnderNop : Prop :=
  ∀ (i : Instr) (s : State), isControl i = true → s.cfgUnimpl = .nop →
    (s.stage = .decode → exec i s = .next { s with lD := { s.lD with stalled := false } }) ∧
    (s.stage = .execute → exec i s = .next s) ∧
    (s.stage = .memory → exec i s = .next s) ∧
    (s.stage = .writeback → exec i s = .next { s with retired := s.retired + 1 })

/-! ### Raises and the frame of an instruction -/

/-- Releasing a register that is already valid raises SB_INVARIANT with the releasing latch's pc and the register, and the
step's writes are discarded: Execute under EX, Writeback under WB (R110, R111; 60_exceptions.md R205, R210). -/
def Obligations.DoubleReleaseRaisesSbInvariant : Prop :=
  ∀ (i : Instr) (s : State) (rd : Reg), dstOf i = some rd → s.validAt rd = true →
    (s.stage = .execute → s.cfgRelease = .ex → (executeTicks i = 1 ∨ s.lE.busy = true) →
      exec i s = .next
        { s with
          faultCode := .sbInvariant, faultPc := s.lE.pc, faultInfo := BitVec.ofNat 33 rd.val, clock := s.clock + 1,
          status := .faulted, stage := .fetch }) ∧
    (s.stage = .writeback → s.cfgRelease = .wb →
      exec i s = .next
        { s with
          faultCode := .sbInvariant, faultPc := s.lW.pc, faultInfo := BitVec.ofNat 33 rd.val, clock := s.clock + 1,
          status := .faulted, stage := .fetch })

/-- The frame of every instruction in every stage: registers change only at Writeback and only the destination; the
scoreboard only at the destination; memory only at the cell a STORE in bounds stores to; `pc` only at Fetch; `retired` only
at Writeback; each latch only in the stages that write it; the inputs never; the fault registers, `clock` and `status` only
by fault entry. -/
def Obligations.FrameOfEveryInstruction : Prop :=
  ∀ (i : Instr) (s t : State), Memory.wf s.params.dmSize s.dm = true → s.status = .running → exec i s = .next t →
    (∀ r, ¬(s.stage = .writeback ∧ dstOf i = some r) → t.reg r = s.reg r) ∧
    (∀ r, dstOf i ≠ some r → t.validAt r = s.validAt r) ∧
    (∀ c, ¬(s.stage = .memory ∧ i.opcode = 0x8#4 ∧ inBounds s.params.dmSize s.lM.ea = true ∧ c = cellOf s.lM.ea) →
      Memory.read t.dm c = Memory.read s.dm c) ∧
    (s.stage ≠ .fetch → t.pc = s.pc) ∧
    (s.stage ≠ .writeback → t.retired = s.retired) ∧
    t.lW = s.lW ∧
    (s.stage ≠ .memory → t.lM = s.lM) ∧
    (s.stage ≠ .execute → t.lE = s.lE) ∧
    (s.stage = .memory ∨ s.stage = .writeback → t.lD = s.lD) ∧
    (s.stage ≠ .execute → s.stage ≠ .fetch → t.lF = s.lF) ∧
    t.prog = s.prog ∧ t.cfgRelease = s.cfgRelease ∧ t.cfgUnimpl = s.cfgUnimpl ∧ t.params = s.params ∧
    t.rst = s.rst ∧
    (t.status ≠ .faulted →
      t.status = s.status ∧ t.faultCode = s.faultCode ∧ t.faultPc = s.faultPc ∧ t.faultInfo = s.faultInfo ∧
        t.clock = s.clock ∧ t.stage = s.stage) ∧
    (t.status = .faulted → t.clock = s.clock + 1 ∧ t.regs = s.regs ∧ t.valid = s.valid ∧ t.dm = s.dm ∧
      t.retired = s.retired ∧ t.lF = s.lF ∧ t.lD = s.lD ∧ t.lE = s.lE ∧ t.lM = s.lM)

/-! ### The clock edge and the tick -/

/-- R43: a clock edge with `rst = 1` leaves the reset state, field by field, from any state; the inputs that R31 names
survive (70_reset_and_hazards.md R230). -/
def Obligations.ResetEdgeGivesTheResetState : Prop :=
  ∀ s : State, configOk s.params s.progLen = true → s.rst = true →
    ∃ t, step s = .next t ∧
      (∀ r, t.reg r = 0 ∧ t.validAt r = true) ∧ (∀ c, Memory.read t.dm c = 0) ∧
      t.pc = s.params.pcBase ∧ (s.params = Config.params → t.pc = 4000) ∧ t.clock = 0 ∧ t.retired = 0 ∧
      (0 < s.progLen → t.status = .running) ∧ (s.progLen = 0 → t.status = .complete) ∧
      t.faultCode = .none ∧ t.faultPc = 0 ∧ t.faultInfo = 0 ∧
      (∀ l ∈ [t.lF, t.lD, t.lE, t.lM, t.lW], l = ⟨false, 0, 0, 0, 0, 0, 0, 0, 0, 0, 0, false, false⟩) ∧
      t.prog = s.prog ∧ t.cfgRelease = s.cfgRelease ∧ t.cfgUnimpl = s.cfgUnimpl

/-- A configuration with `P_PC_BASE + P_PC_STEP * N >= 2^32` is refused (00_scope.md R9). That every clock edge refuses it,
and that parameters no rule has a meaning for are refused as well, is the model's reading (log entries 5 and 10). -/
def Obligations.TooLongProgramIsRefused : Prop :=
  ∀ s : State,
    (s.params.nregs = 16 → s.params.pcStep ≠ 0 → 2 ^ 32 ≤ s.params.pcBase.toNat + s.params.pcStep.toNat * s.prog.length →
      step s = .refused .programTooLong) ∧
    (s.params.nregs ≠ 16 ∨ s.params.pcStep = 0 → step s = .refused .unsupportedParameters)

/-- R106: a tick in Complete or Faulted changes no state at all. -/
def Obligations.StoppedMachineChangesNothing : Prop :=
  ∀ s : State, configOk s.params s.progLen = true → s.rst = false → s.status = .complete ∨ s.status = .faulted →
    step s = .next s

/-- R107: `clock` advances by exactly 1, modulo 2^32, in every tick taken in Running, a faulting one included. -/
def Obligations.EveryRunningTickAdvancesTheClock : Prop :=
  ∀ s t : State, Ticks s → step s = .next t → t.clock = s.clock + 1

/-- R115: `retired` increases by 1 in exactly the ticks in which Writeback acts, whatever the instruction writes. A double
release would discard the action (R210), and under the invariant there is none. -/
def Obligations.RetiredCountsWritebackActions : Prop :=
  ∀ s t : State, Ticks s → step s = .next t →
    (t.retired = if s.lW.acts && !wbRaises s then s.retired + 1 else s.retired) ∧ (Inv s → wbRaises s = false)

/-- The inputs are constant: no clock edge changes the program store, its length or the configuration (10_state.md R31). -/
def Obligations.NoStepChangesAnInput : Prop :=
  ∀ s t : State, step s = .next t →
    t.prog = s.prog ∧ t.progLen = s.progLen ∧ t.cfgRelease = s.cfgRelease ∧ t.cfgUnimpl = s.cfgUnimpl

/-- No clock edge changes the parameters or the level of `rst`. It is the model's choice to hold both in State: log entry 6
for `rst`, log entry 10 for the parameters. -/
def Obligations.NoStepChangesTheParametersOrRst : Prop :=
  ∀ s t : State, step s = .next t → t.params = s.params ∧ t.rst = s.rst

/-- In a tick a register changes only if Writeback acts on a writer of it, and then to that latch's result (R22). -/
def Obligations.RegistersChangeOnlyByWriteback : Prop :=
  ∀ (s t : State) (r : Reg), Ticks s → step s = .next t → t.reg r ≠ s.reg r →
    s.lW.acts = true ∧ latchDst s.lW = some r ∧ t.reg r = s.lW.res

/-- In a tick a cell changes only if Memory acts on a STORE in bounds whose address it is, and then to the stored operand
(20_memory.md R60). -/
def Obligations.CellsChangeOnlyByStore : Prop :=
  ∀ (s t : State) (c : Nat), Ticks s → Memory.wf s.params.dmSize s.dm = true → step s = .next t →
    Memory.read t.dm c ≠ Memory.read s.dm c →
    s.lM.acts = true ∧ s.lM.op = 0x8#4 ∧ s.lM.ea.toInt = (c : Int) ∧ c < s.params.dmSize ∧ Memory.read t.dm c = s.lM.a

/-- R25: a tick leaves `pc` or adds `P_PC_STEP` to it (4 on this hardware), and it adds that only if the program store holds
a record at the fetch index. -/
def Obligations.PcHoldsOrAdvancesByFour : Prop :=
  ∀ s t : State, Ticks s → step s = .next t →
    t.pc = s.pc ∨ (t.pc = s.pc + s.params.pcStep ∧ s.fetchWord?.isSome = true ∧ t.lF.pc = s.pc)

/-! ### The stage steps -/

/-- R136 to R139: with `pc` at program index `k`, Fetch loads record `k`, or past the end a bubble that carries `pc`; it hands it on and
advances `pc` past a record unless Decode is stalled, and does nothing while the multiply FSM holds `L.F` (R140). -/
def Obligations.FetchLoadsHandsOnOrFreezes : Prop :=
  ∀ (s : State) (k : Nat), configOk s.params s.progLen = true → k ≤ s.progLen →
    s.pc = s.params.pcBase + s.params.pcStep * BitVec.ofNat 32 k →
    let l : Latch := match s.prog[k]? with
      | some w =>
        let r := Record.ofWord w
        ⟨true, s.pc, r.op, r.rd, r.rs1, r.rs2, r.imm, 0, 0, 0, 0, false, false⟩
      | none => ⟨false, s.pc, 0, 0, 0, 0, 0, 0, 0, 0, 0, false, false⟩
    (s.lF.busy = false → s.lF.stalled = false → s.lD.stalled = false →
      stepF s = .next
        { s with lF := l, lD := l, pc := if k < s.progLen then s.pc + s.params.pcStep else s.pc, stage := .fetch }) ∧
    (s.lF.busy = false → s.lF.stalled = false → s.lD.stalled = true →
      stepF s = .next { s with lF := l, stage := .fetch }) ∧
    (s.lF.busy = true ∨ s.lF.stalled = true → stepF s = .next { s with stage := .fetch })

/-- R132, R134: Decode copies `L.D` into `L.E` in every tick it does not raise in, a data-stalled latch and a bubble
included, except under the structural hazard, where it only marks `L.D` stalled; a bubble's mark is cleared and nothing is
read or checked, and a data-stalled copy carries `stalled = 1`, on which no later stage acts. -/
def Obligations.DecodeHandsOnExceptUnderTheStructuralHazard : Prop :=
  ∀ s : State, s.status = .running →
    (structuralHazard s = true → stepDE s = .next { s with lD := { s.lD with stalled := true } }) ∧
    (structuralHazard s = false → ∀ t, stepDE s = .next t → t.status = .running → t.lE = t.lD) ∧
    (structuralHazard s = false → s.lD.occ = false →
      stepDE s = .next { s with lD := { s.lD with stalled := false }, lE := { s.lD with stalled := false } }) ∧
    (structuralHazard s = false → s.lD.occ = true → ∀ i, s.lD.record.instr = .ok i →
      dataHazard (src1Of i) (src2Of i) (dstOf i) s = true →
      ∃ t, stepDE s = .next t ∧ t.lE = { s.lD with stalled := true } ∧ t.lE.actsInExecute = false ∧ t.lE.acts = false)

/-- R125: Execute copies `L.E` into `L.M` in every tick it does not raise in, after its own updates; a MUL start's copy
carries `busy`, and Memory and Writeback do not act on it. -/
def Obligations.ExecuteCopiesForwardInEveryTick : Prop :=
  ∀ s t : State, s.status = .running → stepEX s = .next t → t.status = .running →
    t.lM = t.lE ∧ (mulStarts s = true → t.lM.busy = true ∧ t.lM.acts = false)

/-- R203: Decode raises UNIMPL on BZ, BNZ, JUMP and HALT under `P_UNIMPL = Fault`, with the latch's pc and opcode, and under
`Nop` no instruction ever raises it. -/
def Obligations.UnimplIsRaisedUnderFaultAndNeverUnderNop : Prop :=
  (∀ s : State, structuralHazard s = false → s.lD.occ = true → 9 ≤ s.lD.op.toNat → s.lD.op.toNat ≤ 12 →
    s.cfgUnimpl = .fault →
    stepDE s = .next
      { s with
        faultCode := .unimpl, faultPc := s.lD.pc, faultInfo := s.lD.op.setWidth 33, clock := s.clock + 1,
        status := .faulted, stage := .fetch }) ∧
  (∀ s t : State, s.cfgUnimpl = .nop → s.faultCode ≠ .unimpl → step s = .next t → t.faultCode ≠ .unimpl)

/-- A reserved opcode raises MALFORMED when Decode processes it, before any hazard check, with the latch's pc and opcode; a
latch held by the structural hazard is not checked in that tick (40_pipeline.md R133; 60_exceptions.md R204). -/
def Obligations.ReservedOpcodeRaisesMalformedAtDecode : Prop :=
  ∀ s : State, s.lD.occ = true → s.lD.op = 0xD#4 ∨ s.lD.op = 0xE#4 ∨ s.lD.op = 0xF#4 →
    (structuralHazard s = false →
      stepDE s = .next
        { s with
          faultCode := .malformed, faultPc := s.lD.pc, faultInfo := s.lD.op.setWidth 33, clock := s.clock + 1,
          status := .faulted, stage := .fetch }) ∧
    (structuralHazard s = true → stepDE s = .next { s with lD := { s.lD with stalled := true } })

/-! ### Faults of a tick -/

/-- R211: a tick takes the first raise in step order, Writeback, Memory, Execute, Decode, and records its cause, pc and value
(R201); with no raise it does not fault. -/
def Obligations.FirstRaiseInStepOrderIsTaken : Prop :=
  ∀ s : State, Ticks s → LegalPastDecode s →
    ∃ t, step s = .next t ∧
      (∀ f, firstRaise s = some f →
        t.status = .faulted ∧ t.faultCode = f.code ∧ t.faultPc = f.pc ∧ t.faultInfo = f.info) ∧
      (firstRaise s = none → t.status ≠ .faulted ∧ t.faultCode = s.faultCode)

/-- R210: after a faulting tick the steps before the faulting one have had their effects, that step and the later ones have
had none, and the fault registers, `clock + 1` and Faulted stand; for each of the four steps that can raise. -/
def Obligations.FaultEntryDiscardsTheFaultingStepAndTheLaterOnes : Prop :=
  ∀ s : State, Ticks s → s.stage = .fetch → LegalPastDecode s → ∀ f, firstRaise s = some f →
    let entry := fun u : State =>
      { u with
        faultCode := f.code, faultPc := f.pc, faultInfo := f.info, clock := s.clock + 1, status := .faulted }
    let afterWB := { s with
      regs := regsMid s, retired := retiredNext s
      valid := if s.cfgRelease = .wb then validMid s else s.valid }
    let afterMEM := { afterWB with dm := dmNext s, lM := mPlus s, lW := mPlus s }
    let afterEX := { afterMEM with
      valid := validMid s, lE := ePlus s, lM := ePlus s
      lF := if mulFinishes s then { s.lF with stalled := false } else s.lF
      lD := if mulFinishes s then { s.lD with stalled := false } else s.lD }
    (wbRaises s = true → step s = .next (entry s)) ∧
    (wbRaises s = false → memRaises s = true → step s = .next (entry afterWB)) ∧
    (wbRaises s = false → memRaises s = false → exRaises s = true → step s = .next (entry afterMEM)) ∧
    (wbRaises s = false → memRaises s = false → exRaises s = false → step s = .next (entry afterEX))

/-! ### Stalls and the advance mux -/

/-- The tick is the advance mux of R144: under the invariants of R156, a tick that raises nothing gives exactly the
combinational next state. -/
def Obligations.TickIsTheAdvanceMux : Prop :=
  ∀ s : State, Ticks s → FsmInv s → LegalPastDecode s → firstRaise s = none → step s = .next (combinationalTick s)

/-- A MUL shows `stalled` in Fetch and Decode for exactly one tick (R146): after a tick `L.F.stalled` and `L.E.busy` say that
it was a start, and `L.D.stalled` that it was a start or a data stall of Decode's own, never both; a start is never followed
by another one of the same MUL, and the tick after it hands the product on. -/
def Obligations.MultiplyFreezesFetchAndDecodeForOneTick : Prop :=
  ∀ s t : State, Ticks s → FsmInv s → LegalPastDecode s → step s = .next t → t.status ≠ .faulted →
    t.lF.stalled = mulStarts s ∧ t.lE.busy = mulStarts s ∧ t.lD.stalled = (mulStarts s || dataStall s) ∧
    (mulStarts s = true → dataStall s = false ∧ t.pc = s.pc) ∧
    (s.lE.busy = true →
      mulStarts s = false ∧ t.lM.op = 0x3#4 ∧ t.lM.busy = false ∧ t.lM.res = s.lE.a * s.lE.b)

/-- R158: under `P_RELEASE = EX` no data stall ever happens: Decode is stalled after a tick only if a MUL started in it. -/
def Obligations.NoDataStallUnderEarlyRelease : Prop :=
  ∀ s t : State, Inv s → Ticks s → s.cfgRelease = .ex → step s = .next t → t.status ≠ .faulted →
    dataStall s = false ∧ t.lD.stalled = mulStarts s

/-- R158, R244: under `P_RELEASE = WB` a data stall lasts at most two consecutive ticks. -/
def Obligations.DataStallsLastAtMostTwoTicks : Prop :=
  ∀ s t u : State, Inv s → Ticks s → step s = .next t → t.status = .running → step t = .next u → u.status = .running →
    dataStall s = true → dataStall t = true → dataStall u = false

/-- Decode reads the register file as this tick's Writeback left it, whatever result is still in Execute or Memory: the
write-before-read of R108 (a), and under early release the stale window of 70_reset_and_hazards.md R240. -/
def Obligations.IssueReadsTheRegisterFileAfterWriteback : Prop :=
  ∀ (s t : State) (i : Instr), Ticks s → FsmInv s → LegalPastDecode s → step s = .next t → t.status ≠ .faulted →
    issues s = true → s.lD.record.instr = .ok i →
    (∀ r, src1Of i = some r → t.lE.a = if s.lW.acts = true ∧ latchDst s.lW = some r then s.lW.res else s.reg r) ∧
    (∀ r, src2Of i = some r → t.lE.b = if s.lW.acts = true ∧ latchDst s.lW = some r then s.lW.res else s.reg r)

/-! ### Invariants -/

/-- The invariant holds after reset with any program the configuration allows, and so at `State.reset`, the reset with the
model's choice of no program (log entry 1). -/
def Obligations.InvariantHoldsAtReset : Prop :=
  Inv State.reset ∧
    ∀ (prog : List RecordWord) (release : Release) (unimpl : Unimpl) (params : Params),
      configOk params prog.length = true → Inv (State.resetWith prog release unimpl params)

/-- Every step keeps the invariant: `pc` in range and aligned (10_state.md R26), the FSM and stall flags (R156), the
scoreboard conserved (R157), `retired` at most N (R159), legal opcodes past Decode, data memory canonical. -/
def Obligations.EveryStepKeepsTheInvariant : Prop := ∀ s t : State, Inv s → step s = .next t → Inv t

/-- A state with the invariant always has a next state: no step of it ends in the model's own stops (log entries 4
and 5). -/
def Obligations.InvariantStateAlwaysSteps : Prop := ∀ s : State, Inv s → ∃ t, step s = .next t

/-- At Complete, exactly N instructions have retired, nothing is in flight, and every register is valid (R157, R159). -/
def Obligations.CompletionLeavesNothingPending : Prop :=
  ∀ s : State, Inv s → s.status = .complete →
    s.retired.toNat = s.progLen ∧ fetchIndex s.params s.pc = s.progLen ∧ inFlight s = 0 ∧ ∀ r, s.validAt r = true

/-! ### One instruction from Decode to its retirement -/

/-- An ALU instruction alone in the pipeline puts its result into its destination and nothing else anywhere, in four ticks,
MUL in five (41_alu.md R161 to R172; 70_reset_and_hazards.md R234). -/
def Obligations.LoneAluInstructionRetires : Prop :=
  ∀ (i : Instr) (s : State) (rd : Reg) (v : Word), AloneInDecode i s → dstOf i = some rd →
    aluResult i (match src1Of i with | some r => s.reg r | none => 0) (match src2Of i with | some r => s.reg r | none => 0)
      = some v →
    ∃ t, Host.Core.run Sys2Proof.core (3 + executeTicks i) s = .next t ∧ t.status = .complete ∧
      t.regs = s.regs.set rd v ∧ t.dm = s.dm ∧ t.valid = s.valid ∧ t.pc = s.pc ∧ t.retired = s.retired + 1 ∧
      t.clock = s.clock + BitVec.ofNat 32 (3 + executeTicks i)

/-- A LOAD alone in the pipeline puts the cell at base plus offset into its destination in four ticks, or, out of bounds,
faults in the third and changes no register (42_loadstore.md R180 to R182). -/
def Obligations.LoneLoadRetiresOrFaults : Prop :=
  ∀ (s : State) (rd rs1 : Reg) (imm : Word), AloneInDecode (.load rd rs1 imm) s →
    let ea := (s.reg rs1).toInt + imm.toInt
    (0 ≤ ea → ea < s.params.dmSize →
      ∃ t, Host.Core.run Sys2Proof.core 4 s = .next t ∧ t.status = .complete ∧
        t.regs = s.regs.set rd (Memory.read s.dm ea.toNat) ∧ t.dm = s.dm ∧ t.valid = s.valid ∧
        t.retired = s.retired + 1 ∧ t.clock = s.clock + 4) ∧
    (ea < 0 ∨ s.params.dmSize ≤ ea →
      ∃ t, Host.Core.run Sys2Proof.core 3 s = .next t ∧ t.status = .faulted ∧ t.faultCode = .bounds ∧
        t.faultPc = s.lD.pc ∧ t.faultInfo.toInt = ea ∧ t.regs = s.regs ∧ t.dm = s.dm ∧ t.retired = s.retired)

/-- A STORE alone in the pipeline puts its value into the cell at base plus offset, and changes no other cell and no
register, in four ticks; out of bounds it faults in the third and changes nothing of either (R184). -/
def Obligations.LoneStoreRetiresOrFaults : Prop :=
  ∀ (s : State) (rs1 rs2 : Reg) (imm : Word), AloneInDecode (.store rs1 rs2 imm) s →
    let ea := (s.reg rs2).toInt + imm.toInt
    (0 ≤ ea → ea < s.params.dmSize →
      ∃ t, Host.Core.run Sys2Proof.core 4 s = .next t ∧ t.status = .complete ∧ t.regs = s.regs ∧
        (∀ c, Memory.read t.dm c = if c = ea.toNat then s.reg rs1 else Memory.read s.dm c) ∧ t.valid = s.valid ∧
        t.retired = s.retired + 1 ∧ t.clock = s.clock + 4) ∧
    (ea < 0 ∨ s.params.dmSize ≤ ea →
      ∃ t, Host.Core.run Sys2Proof.core 3 s = .next t ∧ t.status = .faulted ∧ t.faultCode = .bounds ∧
        t.faultPc = s.lD.pc ∧ t.faultInfo.toInt = ea ∧ t.regs = s.regs ∧ t.dm = s.dm ∧ t.retired = s.retired)

/-- A control opcode alone in the pipeline retires in four ticks with no other effect under Nop, and faults in the first
with UNIMPL under Fault (43_control.md R190). -/
def Obligations.LoneControlOpcodeRetiresOrFaults : Prop :=
  ∀ (i : Instr) (s : State), AloneInDecode i s → isControl i = true →
    (s.cfgUnimpl = .nop →
      ∃ t, Host.Core.run Sys2Proof.core 4 s = .next t ∧ t.status = .complete ∧ t.regs = s.regs ∧ t.dm = s.dm ∧
        t.valid = s.valid ∧ t.pc = s.pc ∧ t.retired = s.retired + 1 ∧ t.clock = s.clock + 4) ∧
    (s.cfgUnimpl = .fault →
      ∃ t, step s = .next t ∧ t.status = .faulted ∧ t.faultCode = .unimpl ∧ t.faultPc = s.lD.pc ∧
        t.faultInfo = i.opcode.setWidth 33 ∧ t.regs = s.regs ∧ t.dm = s.dm ∧ t.pc = s.pc ∧ t.retired = s.retired)

/-! ### Whole runs -/

/-- Under `P_RELEASE = WB` every tick keeps the sequential meaning: what the issued instructions will have done is unchanged
by a tick that issues nothing, and grows by exactly the issued instruction's sequential effect by a tick that issues
(70_reset_and_hazards.md R241). -/
def Obligations.WbTickRefinesSequentialExecution : Prop :=
  ∀ s t : State, Inv s → Ticks s → s.cfgRelease = .wb → step s = .next t → t.status ≠ .faulted →
    (issues s = false → flushed t = flushed s) ∧
    (∀ i, issues s = true → s.lD.record.instr = .ok i → flushed t = seqExec s.params.dmSize i (flushed s))

/-- R241: under `P_RELEASE = WB` the end state of every run that completes is the sequential end state of its program. -/
def Obligations.CompleteRunUnderWbIsSequential : Prop :=
  ∀ (prog : List RecordWord) (unimpl : Unimpl) (params : Params) (n : Nat) (t : State),
    configOk params prog.length = true →
    Host.Core.run Sys2Proof.core n (State.resetWith prog .wb unimpl params) = .next t → t.status = .complete →
    (⟨t.regs, t.dm⟩ : Arch) = seqRun params.dmSize prog ⟨Vector.replicate _ 0, []⟩

/-- Under `P_RELEASE = EX` a tick that does not fault brings the end of the run exactly one tick nearer, and the run is
Complete when no tick is left (R158). -/
def Obligations.TicksLeftCountsDown : Prop :=
  ∀ s t : State, Inv s → Ticks s → s.cfgRelease = .ex → step s = .next t → t.status ≠ .faulted →
    ticksLeft t + 1 = ticksLeft s ∧ (t.status = .complete ↔ ticksLeft t = 0)

/-- R158: under `P_RELEASE = EX` a fault-free run of N >= 1 instructions, m of them MUL, reaches Complete after exactly
N + 4 + m ticks, with `clock` at that count. -/
def Obligations.FaultFreeRunUnderExTakesNPlusFourPlusM : Prop :=
  ∀ (prog : List RecordWord) (unimpl : Unimpl) (params : Params), configOk params prog.length = true → prog ≠ [] →
    let ticks := prog.length + 4 + mulCount prog
    (∀ t, Host.Core.run Sys2Proof.core ticks (State.resetWith prog .ex unimpl params) = .next t → t.status ≠ .faulted →
      t.status = .complete ∧ t.clock.toNat = ticks ∧ t.retired.toNat = prog.length) ∧
    (∀ n t, n < ticks → Host.Core.run Sys2Proof.core n (State.resetWith prog .ex unimpl params) = .next t →
      t.status ≠ .complete)

/-- Under either policy every tick that does not fault lowers the work that is left, and the run is Complete when none is left:
the step form of R158 and R244, that every stall ends. -/
def Obligations.WorkLeftFallsInEveryTick : Prop :=
  ∀ s t : State, Inv s → Ticks s → step s = .next t → t.status ≠ .faulted →
    workLeft t < workLeft s ∧ (t.status = .complete ↔ workLeft t = 0)

/-- R158, R244: every run ends, in Complete or in Faulted, from every state with the invariant and under either policy. -/
def Obligations.EveryRunEnds : Prop :=
  ∀ s : State, Inv s → s.rst = false →
    ∃ n t, Host.Core.run Sys2Proof.core n s = .next t ∧ (t.status = .complete ∨ t.status = .faulted)

/-! ### Output ports -/

/-- R103, R29, R201: what the output ports show. -/
def Obligations.OutputPortsShowTheState : Prop :=
  ∀ s : State,
    (∀ r : Reg, (validPort s).getLsbD r.val = s.validAt r) ∧
    (statusPort s = 0 ↔ s.status = .running) ∧ (statusPort s = 1 ↔ s.status = .complete) ∧
    (statusPort s = 2 ↔ s.status = .faulted) ∧
    (faultCodePort s = 0 ↔ s.faultCode = .none) ∧ (faultCodePort s = 1 ↔ s.faultCode = .bounds) ∧
    (faultCodePort s = 2 ↔ s.faultCode = .unimpl) ∧ (faultCodePort s = 3 ↔ s.faultCode = .sbInvariant) ∧
    (faultCodePort s = 4 ↔ s.faultCode = .malformed) ∧
    (∀ a : BitVec 12, a.toNat < s.params.dmSize → observeCell s a = some (Memory.read s.dm a.toNat))
end

