-- ==== Sys2Proof/Laws/State.lean ====
section
/-! SUPPORT. One lemma for each field of State after each named update, so that no proof unfolds a record update. -/

namespace Sys2Proof.Machine

variable (s : State)

/-! ### setReg -/

@[simp] theorem setReg_regs (r : Reg) (v : Word) : (s.setReg r v).regs = s.regs.set r v := rfl
@[simp] theorem setReg_valid (r : Reg) (v : Word) : (s.setReg r v).valid = s.valid := rfl
@[simp] theorem setReg_pc (r : Reg) (v : Word) : (s.setReg r v).pc = s.pc := rfl
@[simp] theorem setReg_status (r : Reg) (v : Word) : (s.setReg r v).status = s.status := rfl
@[simp] theorem setReg_faultCode (r : Reg) (v : Word) : (s.setReg r v).faultCode = s.faultCode := rfl
@[simp] theorem setReg_faultPc (r : Reg) (v : Word) : (s.setReg r v).faultPc = s.faultPc := rfl
@[simp] theorem setReg_faultInfo (r : Reg) (v : Word) : (s.setReg r v).faultInfo = s.faultInfo := rfl
@[simp] theorem setReg_clock (r : Reg) (v : Word) : (s.setReg r v).clock = s.clock := rfl
@[simp] theorem setReg_retired (r : Reg) (v : Word) : (s.setReg r v).retired = s.retired := rfl
@[simp] theorem setReg_dm (r : Reg) (v : Word) : (s.setReg r v).dm = s.dm := rfl
@[simp] theorem setReg_lF (r : Reg) (v : Word) : (s.setReg r v).lF = s.lF := rfl
@[simp] theorem setReg_lD (r : Reg) (v : Word) : (s.setReg r v).lD = s.lD := rfl
@[simp] theorem setReg_lE (r : Reg) (v : Word) : (s.setReg r v).lE = s.lE := rfl
@[simp] theorem setReg_lM (r : Reg) (v : Word) : (s.setReg r v).lM = s.lM := rfl
@[simp] theorem setReg_lW (r : Reg) (v : Word) : (s.setReg r v).lW = s.lW := rfl
@[simp] theorem setReg_prog (r : Reg) (v : Word) : (s.setReg r v).prog = s.prog := rfl
@[simp] theorem setReg_cfgRelease (r : Reg) (v : Word) : (s.setReg r v).cfgRelease = s.cfgRelease := rfl
@[simp] theorem setReg_cfgUnimpl (r : Reg) (v : Word) : (s.setReg r v).cfgUnimpl = s.cfgUnimpl := rfl
@[simp] theorem setReg_params (r : Reg) (v : Word) : (s.setReg r v).params = s.params := rfl
@[simp] theorem setReg_rst (r : Reg) (v : Word) : (s.setReg r v).rst = s.rst := rfl
@[simp] theorem setReg_stage (r : Reg) (v : Word) : (s.setReg r v).stage = s.stage := rfl
@[simp] theorem setReg_validAt (r : Reg) (v : Word) (q : Reg) : (s.setReg r v).validAt q = s.validAt q := rfl
@[simp] theorem setReg_progLen (r : Reg) (v : Word) : (s.setReg r v).progLen = s.progLen := rfl
@[simp] theorem setReg_fetchWord (r : Reg) (v : Word) : (s.setReg r v).fetchWord? = s.fetchWord? := rfl
@[simp] theorem setReg_fetchLatch (r : Reg) (v : Word) : (s.setReg r v).fetchLatch = s.fetchLatch := rfl

/-! ### setValid -/

@[simp] theorem setValid_regs (r : Reg) (b : Bool) : (s.setValid r b).regs = s.regs := rfl
@[simp] theorem setValid_valid (r : Reg) (b : Bool) : (s.setValid r b).valid = s.valid.set r b := rfl
@[simp] theorem setValid_pc (r : Reg) (b : Bool) : (s.setValid r b).pc = s.pc := rfl
@[simp] theorem setValid_status (r : Reg) (b : Bool) : (s.setValid r b).status = s.status := rfl
@[simp] theorem setValid_faultCode (r : Reg) (b : Bool) : (s.setValid r b).faultCode = s.faultCode := rfl
@[simp] theorem setValid_faultPc (r : Reg) (b : Bool) : (s.setValid r b).faultPc = s.faultPc := rfl
@[simp] theorem setValid_faultInfo (r : Reg) (b : Bool) : (s.setValid r b).faultInfo = s.faultInfo := rfl
@[simp] theorem setValid_clock (r : Reg) (b : Bool) : (s.setValid r b).clock = s.clock := rfl
@[simp] theorem setValid_retired (r : Reg) (b : Bool) : (s.setValid r b).retired = s.retired := rfl
@[simp] theorem setValid_dm (r : Reg) (b : Bool) : (s.setValid r b).dm = s.dm := rfl
@[simp] theorem setValid_lF (r : Reg) (b : Bool) : (s.setValid r b).lF = s.lF := rfl
@[simp] theorem setValid_lD (r : Reg) (b : Bool) : (s.setValid r b).lD = s.lD := rfl
@[simp] theorem setValid_lE (r : Reg) (b : Bool) : (s.setValid r b).lE = s.lE := rfl
@[simp] theorem setValid_lM (r : Reg) (b : Bool) : (s.setValid r b).lM = s.lM := rfl
@[simp] theorem setValid_lW (r : Reg) (b : Bool) : (s.setValid r b).lW = s.lW := rfl
@[simp] theorem setValid_prog (r : Reg) (b : Bool) : (s.setValid r b).prog = s.prog := rfl
@[simp] theorem setValid_cfgRelease (r : Reg) (b : Bool) : (s.setValid r b).cfgRelease = s.cfgRelease := rfl
@[simp] theorem setValid_cfgUnimpl (r : Reg) (b : Bool) : (s.setValid r b).cfgUnimpl = s.cfgUnimpl := rfl
@[simp] theorem setValid_params (r : Reg) (b : Bool) : (s.setValid r b).params = s.params := rfl
@[simp] theorem setValid_rst (r : Reg) (b : Bool) : (s.setValid r b).rst = s.rst := rfl
@[simp] theorem setValid_stage (r : Reg) (b : Bool) : (s.setValid r b).stage = s.stage := rfl
@[simp] theorem setValid_reg (r : Reg) (b : Bool) (q : Reg) : (s.setValid r b).reg q = s.reg q := rfl
@[simp] theorem setValid_progLen (r : Reg) (b : Bool) : (s.setValid r b).progLen = s.progLen := rfl
@[simp] theorem setValid_fetchWord (r : Reg) (b : Bool) : (s.setValid r b).fetchWord? = s.fetchWord? := rfl
@[simp] theorem setValid_fetchLatch (r : Reg) (b : Bool) : (s.setValid r b).fetchLatch = s.fetchLatch := rfl

/-! ### setF -/

@[simp] theorem setF_regs (l : Latch) : (s.setF l).regs = s.regs := rfl
@[simp] theorem setF_valid (l : Latch) : (s.setF l).valid = s.valid := rfl
@[simp] theorem setF_pc (l : Latch) : (s.setF l).pc = s.pc := rfl
@[simp] theorem setF_status (l : Latch) : (s.setF l).status = s.status := rfl
@[simp] theorem setF_faultCode (l : Latch) : (s.setF l).faultCode = s.faultCode := rfl
@[simp] theorem setF_faultPc (l : Latch) : (s.setF l).faultPc = s.faultPc := rfl
@[simp] theorem setF_faultInfo (l : Latch) : (s.setF l).faultInfo = s.faultInfo := rfl
@[simp] theorem setF_clock (l : Latch) : (s.setF l).clock = s.clock := rfl
@[simp] theorem setF_retired (l : Latch) : (s.setF l).retired = s.retired := rfl
@[simp] theorem setF_dm (l : Latch) : (s.setF l).dm = s.dm := rfl
@[simp] theorem setF_lF (l : Latch) : (s.setF l).lF = l := rfl
@[simp] theorem setF_lD (l : Latch) : (s.setF l).lD = s.lD := rfl
@[simp] theorem setF_lE (l : Latch) : (s.setF l).lE = s.lE := rfl
@[simp] theorem setF_lM (l : Latch) : (s.setF l).lM = s.lM := rfl
@[simp] theorem setF_lW (l : Latch) : (s.setF l).lW = s.lW := rfl
@[simp] theorem setF_prog (l : Latch) : (s.setF l).prog = s.prog := rfl
@[simp] theorem setF_cfgRelease (l : Latch) : (s.setF l).cfgRelease = s.cfgRelease := rfl
@[simp] theorem setF_cfgUnimpl (l : Latch) : (s.setF l).cfgUnimpl = s.cfgUnimpl := rfl
@[simp] theorem setF_params (l : Latch) : (s.setF l).params = s.params := rfl
@[simp] theorem setF_rst (l : Latch) : (s.setF l).rst = s.rst := rfl
@[simp] theorem setF_stage (l : Latch) : (s.setF l).stage = s.stage := rfl
@[simp] theorem setF_reg (l : Latch) (q : Reg) : (s.setF l).reg q = s.reg q := rfl
@[simp] theorem setF_validAt (l : Latch) (q : Reg) : (s.setF l).validAt q = s.validAt q := rfl
@[simp] theorem setF_progLen (l : Latch) : (s.setF l).progLen = s.progLen := rfl
@[simp] theorem setF_fetchWord (l : Latch) : (s.setF l).fetchWord? = s.fetchWord? := rfl
@[simp] theorem setF_fetchLatch (l : Latch) : (s.setF l).fetchLatch = s.fetchLatch := rfl

/-! ### setD -/

@[simp] theorem setD_regs (l : Latch) : (s.setD l).regs = s.regs := rfl
@[simp] theorem setD_valid (l : Latch) : (s.setD l).valid = s.valid := rfl
@[simp] theorem setD_pc (l : Latch) : (s.setD l).pc = s.pc := rfl
@[simp] theorem setD_status (l : Latch) : (s.setD l).status = s.status := rfl
@[simp] theorem setD_faultCode (l : Latch) : (s.setD l).faultCode = s.faultCode := rfl
@[simp] theorem setD_faultPc (l : Latch) : (s.setD l).faultPc = s.faultPc := rfl
@[simp] theorem setD_faultInfo (l : Latch) : (s.setD l).faultInfo = s.faultInfo := rfl
@[simp] theorem setD_clock (l : Latch) : (s.setD l).clock = s.clock := rfl
@[simp] theorem setD_retired (l : Latch) : (s.setD l).retired = s.retired := rfl
@[simp] theorem setD_dm (l : Latch) : (s.setD l).dm = s.dm := rfl
@[simp] theorem setD_lF (l : Latch) : (s.setD l).lF = s.lF := rfl
@[simp] theorem setD_lD (l : Latch) : (s.setD l).lD = l := rfl
@[simp] theorem setD_lE (l : Latch) : (s.setD l).lE = s.lE := rfl
@[simp] theorem setD_lM (l : Latch) : (s.setD l).lM = s.lM := rfl
@[simp] theorem setD_lW (l : Latch) : (s.setD l).lW = s.lW := rfl
@[simp] theorem setD_prog (l : Latch) : (s.setD l).prog = s.prog := rfl
@[simp] theorem setD_cfgRelease (l : Latch) : (s.setD l).cfgRelease = s.cfgRelease := rfl
@[simp] theorem setD_cfgUnimpl (l : Latch) : (s.setD l).cfgUnimpl = s.cfgUnimpl := rfl
@[simp] theorem setD_params (l : Latch) : (s.setD l).params = s.params := rfl
@[simp] theorem setD_rst (l : Latch) : (s.setD l).rst = s.rst := rfl
@[simp] theorem setD_stage (l : Latch) : (s.setD l).stage = s.stage := rfl
@[simp] theorem setD_reg (l : Latch) (q : Reg) : (s.setD l).reg q = s.reg q := rfl
@[simp] theorem setD_validAt (l : Latch) (q : Reg) : (s.setD l).validAt q = s.validAt q := rfl
@[simp] theorem setD_progLen (l : Latch) : (s.setD l).progLen = s.progLen := rfl
@[simp] theorem setD_fetchWord (l : Latch) : (s.setD l).fetchWord? = s.fetchWord? := rfl
@[simp] theorem setD_fetchLatch (l : Latch) : (s.setD l).fetchLatch = s.fetchLatch := rfl

/-! ### setE -/

@[simp] theorem setE_regs (l : Latch) : (s.setE l).regs = s.regs := rfl
@[simp] theorem setE_valid (l : Latch) : (s.setE l).valid = s.valid := rfl
@[simp] theorem setE_pc (l : Latch) : (s.setE l).pc = s.pc := rfl
@[simp] theorem setE_status (l : Latch) : (s.setE l).status = s.status := rfl
@[simp] theorem setE_faultCode (l : Latch) : (s.setE l).faultCode = s.faultCode := rfl
@[simp] theorem setE_faultPc (l : Latch) : (s.setE l).faultPc = s.faultPc := rfl
@[simp] theorem setE_faultInfo (l : Latch) : (s.setE l).faultInfo = s.faultInfo := rfl
@[simp] theorem setE_clock (l : Latch) : (s.setE l).clock = s.clock := rfl
@[simp] theorem setE_retired (l : Latch) : (s.setE l).retired = s.retired := rfl
@[simp] theorem setE_dm (l : Latch) : (s.setE l).dm = s.dm := rfl
@[simp] theorem setE_lF (l : Latch) : (s.setE l).lF = s.lF := rfl
@[simp] theorem setE_lD (l : Latch) : (s.setE l).lD = s.lD := rfl
@[simp] theorem setE_lE (l : Latch) : (s.setE l).lE = l := rfl
@[simp] theorem setE_lM (l : Latch) : (s.setE l).lM = s.lM := rfl
@[simp] theorem setE_lW (l : Latch) : (s.setE l).lW = s.lW := rfl
@[simp] theorem setE_prog (l : Latch) : (s.setE l).prog = s.prog := rfl
@[simp] theorem setE_cfgRelease (l : Latch) : (s.setE l).cfgRelease = s.cfgRelease := rfl
@[simp] theorem setE_cfgUnimpl (l : Latch) : (s.setE l).cfgUnimpl = s.cfgUnimpl := rfl
@[simp] theorem setE_params (l : Latch) : (s.setE l).params = s.params := rfl
@[simp] theorem setE_rst (l : Latch) : (s.setE l).rst = s.rst := rfl
@[simp] theorem setE_stage (l : Latch) : (s.setE l).stage = s.stage := rfl
@[simp] theorem setE_reg (l : Latch) (q : Reg) : (s.setE l).reg q = s.reg q := rfl
@[simp] theorem setE_validAt (l : Latch) (q : Reg) : (s.setE l).validAt q = s.validAt q := rfl
@[simp] theorem setE_progLen (l : Latch) : (s.setE l).progLen = s.progLen := rfl
@[simp] theorem setE_fetchWord (l : Latch) : (s.setE l).fetchWord? = s.fetchWord? := rfl
@[simp] theorem setE_fetchLatch (l : Latch) : (s.setE l).fetchLatch = s.fetchLatch := rfl

/-! ### setM -/

@[simp] theorem setM_regs (l : Latch) : (s.setM l).regs = s.regs := rfl
@[simp] theorem setM_valid (l : Latch) : (s.setM l).valid = s.valid := rfl
@[simp] theorem setM_pc (l : Latch) : (s.setM l).pc = s.pc := rfl
@[simp] theorem setM_status (l : Latch) : (s.setM l).status = s.status := rfl
@[simp] theorem setM_faultCode (l : Latch) : (s.setM l).faultCode = s.faultCode := rfl
@[simp] theorem setM_faultPc (l : Latch) : (s.setM l).faultPc = s.faultPc := rfl
@[simp] theorem setM_faultInfo (l : Latch) : (s.setM l).faultInfo = s.faultInfo := rfl
@[simp] theorem setM_clock (l : Latch) : (s.setM l).clock = s.clock := rfl
@[simp] theorem setM_retired (l : Latch) : (s.setM l).retired = s.retired := rfl
@[simp] theorem setM_dm (l : Latch) : (s.setM l).dm = s.dm := rfl
@[simp] theorem setM_lF (l : Latch) : (s.setM l).lF = s.lF := rfl
@[simp] theorem setM_lD (l : Latch) : (s.setM l).lD = s.lD := rfl
@[simp] theorem setM_lE (l : Latch) : (s.setM l).lE = s.lE := rfl
@[simp] theorem setM_lM (l : Latch) : (s.setM l).lM = l := rfl
@[simp] theorem setM_lW (l : Latch) : (s.setM l).lW = s.lW := rfl
@[simp] theorem setM_prog (l : Latch) : (s.setM l).prog = s.prog := rfl
@[simp] theorem setM_cfgRelease (l : Latch) : (s.setM l).cfgRelease = s.cfgRelease := rfl
@[simp] theorem setM_cfgUnimpl (l : Latch) : (s.setM l).cfgUnimpl = s.cfgUnimpl := rfl
@[simp] theorem setM_params (l : Latch) : (s.setM l).params = s.params := rfl
@[simp] theorem setM_rst (l : Latch) : (s.setM l).rst = s.rst := rfl
@[simp] theorem setM_stage (l : Latch) : (s.setM l).stage = s.stage := rfl
@[simp] theorem setM_reg (l : Latch) (q : Reg) : (s.setM l).reg q = s.reg q := rfl
@[simp] theorem setM_validAt (l : Latch) (q : Reg) : (s.setM l).validAt q = s.validAt q := rfl
@[simp] theorem setM_progLen (l : Latch) : (s.setM l).progLen = s.progLen := rfl
@[simp] theorem setM_fetchWord (l : Latch) : (s.setM l).fetchWord? = s.fetchWord? := rfl
@[simp] theorem setM_fetchLatch (l : Latch) : (s.setM l).fetchLatch = s.fetchLatch := rfl

/-! ### setW -/

@[simp] theorem setW_regs (l : Latch) : (s.setW l).regs = s.regs := rfl
@[simp] theorem setW_valid (l : Latch) : (s.setW l).valid = s.valid := rfl
@[simp] theorem setW_pc (l : Latch) : (s.setW l).pc = s.pc := rfl
@[simp] theorem setW_status (l : Latch) : (s.setW l).status = s.status := rfl
@[simp] theorem setW_faultCode (l : Latch) : (s.setW l).faultCode = s.faultCode := rfl
@[simp] theorem setW_faultPc (l : Latch) : (s.setW l).faultPc = s.faultPc := rfl
@[simp] theorem setW_faultInfo (l : Latch) : (s.setW l).faultInfo = s.faultInfo := rfl
@[simp] theorem setW_clock (l : Latch) : (s.setW l).clock = s.clock := rfl
@[simp] theorem setW_retired (l : Latch) : (s.setW l).retired = s.retired := rfl
@[simp] theorem setW_dm (l : Latch) : (s.setW l).dm = s.dm := rfl
@[simp] theorem setW_lF (l : Latch) : (s.setW l).lF = s.lF := rfl
@[simp] theorem setW_lD (l : Latch) : (s.setW l).lD = s.lD := rfl
@[simp] theorem setW_lE (l : Latch) : (s.setW l).lE = s.lE := rfl
@[simp] theorem setW_lM (l : Latch) : (s.setW l).lM = s.lM := rfl
@[simp] theorem setW_lW (l : Latch) : (s.setW l).lW = l := rfl
@[simp] theorem setW_prog (l : Latch) : (s.setW l).prog = s.prog := rfl
@[simp] theorem setW_cfgRelease (l : Latch) : (s.setW l).cfgRelease = s.cfgRelease := rfl
@[simp] theorem setW_cfgUnimpl (l : Latch) : (s.setW l).cfgUnimpl = s.cfgUnimpl := rfl
@[simp] theorem setW_params (l : Latch) : (s.setW l).params = s.params := rfl
@[simp] theorem setW_rst (l : Latch) : (s.setW l).rst = s.rst := rfl
@[simp] theorem setW_stage (l : Latch) : (s.setW l).stage = s.stage := rfl
@[simp] theorem setW_reg (l : Latch) (q : Reg) : (s.setW l).reg q = s.reg q := rfl
@[simp] theorem setW_validAt (l : Latch) (q : Reg) : (s.setW l).validAt q = s.validAt q := rfl
@[simp] theorem setW_progLen (l : Latch) : (s.setW l).progLen = s.progLen := rfl
@[simp] theorem setW_fetchWord (l : Latch) : (s.setW l).fetchWord? = s.fetchWord? := rfl
@[simp] theorem setW_fetchLatch (l : Latch) : (s.setW l).fetchLatch = s.fetchLatch := rfl

/-! ### setPc -/

@[simp] theorem setPc_regs (v : Word) : (s.setPc v).regs = s.regs := rfl
@[simp] theorem setPc_valid (v : Word) : (s.setPc v).valid = s.valid := rfl
@[simp] theorem setPc_pc (v : Word) : (s.setPc v).pc = v := rfl
@[simp] theorem setPc_status (v : Word) : (s.setPc v).status = s.status := rfl
@[simp] theorem setPc_faultCode (v : Word) : (s.setPc v).faultCode = s.faultCode := rfl
@[simp] theorem setPc_faultPc (v : Word) : (s.setPc v).faultPc = s.faultPc := rfl
@[simp] theorem setPc_faultInfo (v : Word) : (s.setPc v).faultInfo = s.faultInfo := rfl
@[simp] theorem setPc_clock (v : Word) : (s.setPc v).clock = s.clock := rfl
@[simp] theorem setPc_retired (v : Word) : (s.setPc v).retired = s.retired := rfl
@[simp] theorem setPc_dm (v : Word) : (s.setPc v).dm = s.dm := rfl
@[simp] theorem setPc_lF (v : Word) : (s.setPc v).lF = s.lF := rfl
@[simp] theorem setPc_lD (v : Word) : (s.setPc v).lD = s.lD := rfl
@[simp] theorem setPc_lE (v : Word) : (s.setPc v).lE = s.lE := rfl
@[simp] theorem setPc_lM (v : Word) : (s.setPc v).lM = s.lM := rfl
@[simp] theorem setPc_lW (v : Word) : (s.setPc v).lW = s.lW := rfl
@[simp] theorem setPc_prog (v : Word) : (s.setPc v).prog = s.prog := rfl
@[simp] theorem setPc_cfgRelease (v : Word) : (s.setPc v).cfgRelease = s.cfgRelease := rfl
@[simp] theorem setPc_cfgUnimpl (v : Word) : (s.setPc v).cfgUnimpl = s.cfgUnimpl := rfl
@[simp] theorem setPc_params (v : Word) : (s.setPc v).params = s.params := rfl
@[simp] theorem setPc_rst (v : Word) : (s.setPc v).rst = s.rst := rfl
@[simp] theorem setPc_stage (v : Word) : (s.setPc v).stage = s.stage := rfl
@[simp] theorem setPc_reg (v : Word) (q : Reg) : (s.setPc v).reg q = s.reg q := rfl
@[simp] theorem setPc_validAt (v : Word) (q : Reg) : (s.setPc v).validAt q = s.validAt q := rfl
@[simp] theorem setPc_progLen (v : Word) : (s.setPc v).progLen = s.progLen := rfl

/-! ### setDm -/

@[simp] theorem setDm_regs (m : Memory) : (s.setDm m).regs = s.regs := rfl
@[simp] theorem setDm_valid (m : Memory) : (s.setDm m).valid = s.valid := rfl
@[simp] theorem setDm_pc (m : Memory) : (s.setDm m).pc = s.pc := rfl
@[simp] theorem setDm_status (m : Memory) : (s.setDm m).status = s.status := rfl
@[simp] theorem setDm_faultCode (m : Memory) : (s.setDm m).faultCode = s.faultCode := rfl
@[simp] theorem setDm_faultPc (m : Memory) : (s.setDm m).faultPc = s.faultPc := rfl
@[simp] theorem setDm_faultInfo (m : Memory) : (s.setDm m).faultInfo = s.faultInfo := rfl
@[simp] theorem setDm_clock (m : Memory) : (s.setDm m).clock = s.clock := rfl
@[simp] theorem setDm_retired (m : Memory) : (s.setDm m).retired = s.retired := rfl
@[simp] theorem setDm_dm (m : Memory) : (s.setDm m).dm = m := rfl
@[simp] theorem setDm_lF (m : Memory) : (s.setDm m).lF = s.lF := rfl
@[simp] theorem setDm_lD (m : Memory) : (s.setDm m).lD = s.lD := rfl
@[simp] theorem setDm_lE (m : Memory) : (s.setDm m).lE = s.lE := rfl
@[simp] theorem setDm_lM (m : Memory) : (s.setDm m).lM = s.lM := rfl
@[simp] theorem setDm_lW (m : Memory) : (s.setDm m).lW = s.lW := rfl
@[simp] theorem setDm_prog (m : Memory) : (s.setDm m).prog = s.prog := rfl
@[simp] theorem setDm_cfgRelease (m : Memory) : (s.setDm m).cfgRelease = s.cfgRelease := rfl
@[simp] theorem setDm_cfgUnimpl (m : Memory) : (s.setDm m).cfgUnimpl = s.cfgUnimpl := rfl
@[simp] theorem setDm_params (m : Memory) : (s.setDm m).params = s.params := rfl
@[simp] theorem setDm_rst (m : Memory) : (s.setDm m).rst = s.rst := rfl
@[simp] theorem setDm_stage (m : Memory) : (s.setDm m).stage = s.stage := rfl
@[simp] theorem setDm_reg (m : Memory) (q : Reg) : (s.setDm m).reg q = s.reg q := rfl
@[simp] theorem setDm_validAt (m : Memory) (q : Reg) : (s.setDm m).validAt q = s.validAt q := rfl
@[simp] theorem setDm_progLen (m : Memory) : (s.setDm m).progLen = s.progLen := rfl
@[simp] theorem setDm_fetchWord (m : Memory) : (s.setDm m).fetchWord? = s.fetchWord? := rfl
@[simp] theorem setDm_fetchLatch (m : Memory) : (s.setDm m).fetchLatch = s.fetchLatch := rfl

/-! ### retire -/

@[simp] theorem retire_regs : (s.retire).regs = s.regs := rfl
@[simp] theorem retire_valid : (s.retire).valid = s.valid := rfl
@[simp] theorem retire_pc : (s.retire).pc = s.pc := rfl
@[simp] theorem retire_status : (s.retire).status = s.status := rfl
@[simp] theorem retire_faultCode : (s.retire).faultCode = s.faultCode := rfl
@[simp] theorem retire_faultPc : (s.retire).faultPc = s.faultPc := rfl
@[simp] theorem retire_faultInfo : (s.retire).faultInfo = s.faultInfo := rfl
@[simp] theorem retire_clock : (s.retire).clock = s.clock := rfl
@[simp] theorem retire_retired : (s.retire).retired = s.retired + 1 := rfl
@[simp] theorem retire_dm : (s.retire).dm = s.dm := rfl
@[simp] theorem retire_lF : (s.retire).lF = s.lF := rfl
@[simp] theorem retire_lD : (s.retire).lD = s.lD := rfl
@[simp] theorem retire_lE : (s.retire).lE = s.lE := rfl
@[simp] theorem retire_lM : (s.retire).lM = s.lM := rfl
@[simp] theorem retire_lW : (s.retire).lW = s.lW := rfl
@[simp] theorem retire_prog : (s.retire).prog = s.prog := rfl
@[simp] theorem retire_cfgRelease : (s.retire).cfgRelease = s.cfgRelease := rfl
@[simp] theorem retire_cfgUnimpl : (s.retire).cfgUnimpl = s.cfgUnimpl := rfl
@[simp] theorem retire_params : (s.retire).params = s.params := rfl
@[simp] theorem retire_rst : (s.retire).rst = s.rst := rfl
@[simp] theorem retire_stage : (s.retire).stage = s.stage := rfl
@[simp] theorem retire_reg (q : Reg) : (s.retire).reg q = s.reg q := rfl
@[simp] theorem retire_validAt (q : Reg) : (s.retire).validAt q = s.validAt q := rfl
@[simp] theorem retire_progLen : (s.retire).progLen = s.progLen := rfl
@[simp] theorem retire_fetchWord : (s.retire).fetchWord? = s.fetchWord? := rfl
@[simp] theorem retire_fetchLatch : (s.retire).fetchLatch = s.fetchLatch := rfl

/-! ### countTick -/

@[simp] theorem countTick_regs : (s.countTick).regs = s.regs := rfl
@[simp] theorem countTick_valid : (s.countTick).valid = s.valid := rfl
@[simp] theorem countTick_pc : (s.countTick).pc = s.pc := rfl
@[simp] theorem countTick_status : (s.countTick).status = s.status := rfl
@[simp] theorem countTick_faultCode : (s.countTick).faultCode = s.faultCode := rfl
@[simp] theorem countTick_faultPc : (s.countTick).faultPc = s.faultPc := rfl
@[simp] theorem countTick_faultInfo : (s.countTick).faultInfo = s.faultInfo := rfl
@[simp] theorem countTick_clock : (s.countTick).clock = s.clock + 1 := rfl
@[simp] theorem countTick_retired : (s.countTick).retired = s.retired := rfl
@[simp] theorem countTick_dm : (s.countTick).dm = s.dm := rfl
@[simp] theorem countTick_lF : (s.countTick).lF = s.lF := rfl
@[simp] theorem countTick_lD : (s.countTick).lD = s.lD := rfl
@[simp] theorem countTick_lE : (s.countTick).lE = s.lE := rfl
@[simp] theorem countTick_lM : (s.countTick).lM = s.lM := rfl
@[simp] theorem countTick_lW : (s.countTick).lW = s.lW := rfl
@[simp] theorem countTick_prog : (s.countTick).prog = s.prog := rfl
@[simp] theorem countTick_cfgRelease : (s.countTick).cfgRelease = s.cfgRelease := rfl
@[simp] theorem countTick_cfgUnimpl : (s.countTick).cfgUnimpl = s.cfgUnimpl := rfl
@[simp] theorem countTick_params : (s.countTick).params = s.params := rfl
@[simp] theorem countTick_rst : (s.countTick).rst = s.rst := rfl
@[simp] theorem countTick_stage : (s.countTick).stage = s.stage := rfl
@[simp] theorem countTick_reg (q : Reg) : (s.countTick).reg q = s.reg q := rfl
@[simp] theorem countTick_validAt (q : Reg) : (s.countTick).validAt q = s.validAt q := rfl
@[simp] theorem countTick_progLen : (s.countTick).progLen = s.progLen := rfl
@[simp] theorem countTick_fetchWord : (s.countTick).fetchWord? = s.fetchWord? := rfl
@[simp] theorem countTick_fetchLatch : (s.countTick).fetchLatch = s.fetchLatch := rfl

/-! ### setStatus -/

@[simp] theorem setStatus_regs (v : Status) : (s.setStatus v).regs = s.regs := rfl
@[simp] theorem setStatus_valid (v : Status) : (s.setStatus v).valid = s.valid := rfl
@[simp] theorem setStatus_pc (v : Status) : (s.setStatus v).pc = s.pc := rfl
@[simp] theorem setStatus_status (v : Status) : (s.setStatus v).status = v := rfl
@[simp] theorem setStatus_faultCode (v : Status) : (s.setStatus v).faultCode = s.faultCode := rfl
@[simp] theorem setStatus_faultPc (v : Status) : (s.setStatus v).faultPc = s.faultPc := rfl
@[simp] theorem setStatus_faultInfo (v : Status) : (s.setStatus v).faultInfo = s.faultInfo := rfl
@[simp] theorem setStatus_clock (v : Status) : (s.setStatus v).clock = s.clock := rfl
@[simp] theorem setStatus_retired (v : Status) : (s.setStatus v).retired = s.retired := rfl
@[simp] theorem setStatus_dm (v : Status) : (s.setStatus v).dm = s.dm := rfl
@[simp] theorem setStatus_lF (v : Status) : (s.setStatus v).lF = s.lF := rfl
@[simp] theorem setStatus_lD (v : Status) : (s.setStatus v).lD = s.lD := rfl
@[simp] theorem setStatus_lE (v : Status) : (s.setStatus v).lE = s.lE := rfl
@[simp] theorem setStatus_lM (v : Status) : (s.setStatus v).lM = s.lM := rfl
@[simp] theorem setStatus_lW (v : Status) : (s.setStatus v).lW = s.lW := rfl
@[simp] theorem setStatus_prog (v : Status) : (s.setStatus v).prog = s.prog := rfl
@[simp] theorem setStatus_cfgRelease (v : Status) : (s.setStatus v).cfgRelease = s.cfgRelease := rfl
@[simp] theorem setStatus_cfgUnimpl (v : Status) : (s.setStatus v).cfgUnimpl = s.cfgUnimpl := rfl
@[simp] theorem setStatus_params (v : Status) : (s.setStatus v).params = s.params := rfl
@[simp] theorem setStatus_rst (v : Status) : (s.setStatus v).rst = s.rst := rfl
@[simp] theorem setStatus_stage (v : Status) : (s.setStatus v).stage = s.stage := rfl
@[simp] theorem setStatus_reg (v : Status) (q : Reg) : (s.setStatus v).reg q = s.reg q := rfl
@[simp] theorem setStatus_validAt (v : Status) (q : Reg) : (s.setStatus v).validAt q = s.validAt q := rfl
@[simp] theorem setStatus_progLen (v : Status) : (s.setStatus v).progLen = s.progLen := rfl
@[simp] theorem setStatus_fetchWord (v : Status) : (s.setStatus v).fetchWord? = s.fetchWord? := rfl
@[simp] theorem setStatus_fetchLatch (v : Status) : (s.setStatus v).fetchLatch = s.fetchLatch := rfl

/-! ### atStage -/

@[simp] theorem atStage_regs (st : Stage) : (s.atStage st).regs = s.regs := rfl
@[simp] theorem atStage_valid (st : Stage) : (s.atStage st).valid = s.valid := rfl
@[simp] theorem atStage_pc (st : Stage) : (s.atStage st).pc = s.pc := rfl
@[simp] theorem atStage_status (st : Stage) : (s.atStage st).status = s.status := rfl
@[simp] theorem atStage_faultCode (st : Stage) : (s.atStage st).faultCode = s.faultCode := rfl
@[simp] theorem atStage_faultPc (st : Stage) : (s.atStage st).faultPc = s.faultPc := rfl
@[simp] theorem atStage_faultInfo (st : Stage) : (s.atStage st).faultInfo = s.faultInfo := rfl
@[simp] theorem atStage_clock (st : Stage) : (s.atStage st).clock = s.clock := rfl
@[simp] theorem atStage_retired (st : Stage) : (s.atStage st).retired = s.retired := rfl
@[simp] theorem atStage_dm (st : Stage) : (s.atStage st).dm = s.dm := rfl
@[simp] theorem atStage_lF (st : Stage) : (s.atStage st).lF = s.lF := rfl
@[simp] theorem atStage_lD (st : Stage) : (s.atStage st).lD = s.lD := rfl
@[simp] theorem atStage_lE (st : Stage) : (s.atStage st).lE = s.lE := rfl
@[simp] theorem atStage_lM (st : Stage) : (s.atStage st).lM = s.lM := rfl
@[simp] theorem atStage_lW (st : Stage) : (s.atStage st).lW = s.lW := rfl
@[simp] theorem atStage_prog (st : Stage) : (s.atStage st).prog = s.prog := rfl
@[simp] theorem atStage_cfgRelease (st : Stage) : (s.atStage st).cfgRelease = s.cfgRelease := rfl
@[simp] theorem atStage_cfgUnimpl (st : Stage) : (s.atStage st).cfgUnimpl = s.cfgUnimpl := rfl
@[simp] theorem atStage_params (st : Stage) : (s.atStage st).params = s.params := rfl
@[simp] theorem atStage_rst (st : Stage) : (s.atStage st).rst = s.rst := rfl
@[simp] theorem atStage_stage (st : Stage) : (s.atStage st).stage = st := rfl
@[simp] theorem atStage_reg (st : Stage) (q : Reg) : (s.atStage st).reg q = s.reg q := rfl
@[simp] theorem atStage_validAt (st : Stage) (q : Reg) : (s.atStage st).validAt q = s.validAt q := rfl
@[simp] theorem atStage_progLen (st : Stage) : (s.atStage st).progLen = s.progLen := rfl
@[simp] theorem atStage_fetchWord (st : Stage) : (s.atStage st).fetchWord? = s.fetchWord? := rfl
@[simp] theorem atStage_fetchLatch (st : Stage) : (s.atStage st).fetchLatch = s.fetchLatch := rfl

/-! ### takeFault -/

@[simp] theorem takeFault_regs (f : Raised) : (takeFault s f).regs = s.regs := rfl
@[simp] theorem takeFault_valid (f : Raised) : (takeFault s f).valid = s.valid := rfl
@[simp] theorem takeFault_pc (f : Raised) : (takeFault s f).pc = s.pc := rfl
@[simp] theorem takeFault_status (f : Raised) : (takeFault s f).status = .faulted := rfl
@[simp] theorem takeFault_faultCode (f : Raised) : (takeFault s f).faultCode = f.code := rfl
@[simp] theorem takeFault_faultPc (f : Raised) : (takeFault s f).faultPc = f.pc := rfl
@[simp] theorem takeFault_faultInfo (f : Raised) : (takeFault s f).faultInfo = f.info := rfl
@[simp] theorem takeFault_clock (f : Raised) : (takeFault s f).clock = s.clock + 1 := rfl
@[simp] theorem takeFault_retired (f : Raised) : (takeFault s f).retired = s.retired := rfl
@[simp] theorem takeFault_dm (f : Raised) : (takeFault s f).dm = s.dm := rfl
@[simp] theorem takeFault_lF (f : Raised) : (takeFault s f).lF = s.lF := rfl
@[simp] theorem takeFault_lD (f : Raised) : (takeFault s f).lD = s.lD := rfl
@[simp] theorem takeFault_lE (f : Raised) : (takeFault s f).lE = s.lE := rfl
@[simp] theorem takeFault_lM (f : Raised) : (takeFault s f).lM = s.lM := rfl
@[simp] theorem takeFault_lW (f : Raised) : (takeFault s f).lW = s.lW := rfl
@[simp] theorem takeFault_prog (f : Raised) : (takeFault s f).prog = s.prog := rfl
@[simp] theorem takeFault_cfgRelease (f : Raised) : (takeFault s f).cfgRelease = s.cfgRelease := rfl
@[simp] theorem takeFault_cfgUnimpl (f : Raised) : (takeFault s f).cfgUnimpl = s.cfgUnimpl := rfl
@[simp] theorem takeFault_params (f : Raised) : (takeFault s f).params = s.params := rfl
@[simp] theorem takeFault_rst (f : Raised) : (takeFault s f).rst = s.rst := rfl
@[simp] theorem takeFault_stage (f : Raised) : (takeFault s f).stage = .fetch := rfl
@[simp] theorem takeFault_reg (f : Raised) (q : Reg) : (takeFault s f).reg q = s.reg q := rfl
@[simp] theorem takeFault_validAt (f : Raised) (q : Reg) : (takeFault s f).validAt q = s.validAt q := rfl
@[simp] theorem takeFault_progLen (f : Raised) : (takeFault s f).progLen = s.progLen := rfl
@[simp] theorem takeFault_fetchWord (f : Raised) : (takeFault s f).fetchWord? = s.fetchWord? := rfl
@[simp] theorem takeFault_fetchLatch (f : Raised) : (takeFault s f).fetchLatch = s.fetchLatch := rfl

/-! ### Registers and scoreboard: read after write -/

@[simp] theorem setReg_reg (r : Reg) (v : Word) (q : Reg) : (s.setReg r v).reg q = if q = r then v else s.reg q := by
  simp only [State.reg, State.setReg, Fin.getElem_fin, Vector.getElem_set, Fin.ext_iff, eq_comm]

@[simp] theorem setValid_validAt (r : Reg) (b : Bool) (q : Reg) :
    (s.setValid r b).validAt q = if q = r then b else s.validAt q := by
  simp only [State.validAt, State.setValid, Fin.getElem_fin, Vector.getElem_set, Fin.ext_iff, eq_comm]

end Sys2Proof.Machine
end

