-- ==== Sys2Proof/Laws/Memory.lean ====
section
/-! SUPPORT. The laws of data memory: what a read gives after a write, and that writes keep the canonical form. -/

namespace Sys2Proof.Machine

theorem Memory.wfFrom_cons (size lo a : Nat) (v : Word) (m : Memory) :
    Memory.wfFrom size lo ((a, v) :: m) = true ↔ lo ≤ a ∧ a < size ∧ v ≠ 0#32 ∧ Memory.wfFrom size (a + 1) m = true := by
  simp [Memory.wfFrom, and_assoc]

theorem Memory.wfFrom_mono {size lo lo' : Nat} {m : Memory} (h : Memory.wfFrom size lo m = true) (hle : lo' ≤ lo) :
    Memory.wfFrom size lo' m = true := by
  cases m with
  | nil => rfl
  | cons e m =>
    obtain ⟨a, v⟩ := e
    rw [Memory.wfFrom_cons] at h ⊢
    exact ⟨hle.trans h.1, h.2⟩

/-- Below the first entry of a canonical memory every cell reads the reset value 0. -/
theorem Memory.read_below {size lo c : Nat} {m : Memory} (h : Memory.wfFrom size lo m = true) (hc : c < lo) :
    Memory.read m c = 0#32 := by
  induction m generalizing lo with
  | nil => rfl
  | cons e m ih =>
    obtain ⟨a, v⟩ := e
    obtain ⟨hlo, -, -, ht⟩ := (Memory.wfFrom_cons size lo a v m).1 h
    simp only [Memory.read, if_neg (show a ≠ c by omega)]
    exact ih ht (by omega)

theorem Memory.wfFrom_write {size lo c : Nat} {m : Memory} (h : Memory.wfFrom size lo m = true) (hlo : lo ≤ c)
    (hc : c < size) (v : Word) : Memory.wfFrom size lo (Memory.write m c v) = true := by
  induction m generalizing lo with
  | nil =>
    unfold Memory.write
    split <;> simp_all [Memory.wfFrom]
  | cons e m ih =>
    obtain ⟨a, w⟩ := e
    obtain ⟨ha, hsz, hw, ht⟩ := (Memory.wfFrom_cons size lo a w m).1 h
    unfold Memory.write
    split
    · next hca =>
      split
      · exact h
      · next hv => exact (Memory.wfFrom_cons ..).2 ⟨hlo, hc, hv, (Memory.wfFrom_cons ..).2 ⟨by omega, hsz, hw, ht⟩⟩
    · split
      · next hca =>
        subst hca
        split
        · exact Memory.wfFrom_mono ht (by omega)
        · next hv => exact (Memory.wfFrom_cons ..).2 ⟨ha, hsz, hv, ht⟩
      · exact (Memory.wfFrom_cons ..).2 ⟨ha, hsz, hw, ih ht (by omega)⟩

/-- A write to a cell that exists keeps the canonical form. -/
theorem Memory.wf_write {size c : Nat} {m : Memory} (h : Memory.wf size m = true) (hc : c < size) (v : Word) :
    Memory.wf size (Memory.write m c v) = true :=
  Memory.wfFrom_write h (Nat.zero_le _) hc v

theorem Memory.read_write_from {size lo c : Nat} {m : Memory} (h : Memory.wfFrom size lo m = true) (v : Word) (d : Nat) :
    Memory.read (Memory.write m c v) d = if d = c then v else Memory.read m d := by
  induction m generalizing lo with
  | nil =>
    by_cases hd : d = c
    · subst hd
      by_cases hv : v = 0#32 <;> simp [Memory.write, Memory.read, hv]
    · by_cases hv : v = 0#32 <;> simp [Memory.write, Memory.read, hv, hd, Ne.symm hd]
  | cons e m ih =>
    obtain ⟨a, w⟩ := e
    obtain ⟨-, -, -, ht⟩ := (Memory.wfFrom_cons size lo a w m).1 h
    have hbelow : ∀ x, x < a + 1 → Memory.read m x = 0#32 := fun x hx => Memory.read_below ht hx
    unfold Memory.write
    split
    · next hca =>
      split
      · next hv =>
        subst hv
        by_cases hd : d = c
        · subst hd
          simp [Memory.read, show a ≠ d by omega, hbelow d (by omega)]
        · simp [hd]
      · simp [Memory.read, eq_comm]
    · split
      · next hca =>
        subst hca
        split
        · next hv =>
          subst hv
          by_cases hd : d = c
          · subst hd
            simp [hbelow d (by omega)]
          · simp [Memory.read, hd, Ne.symm hd]
        · by_cases hd : d = c
          · simp [Memory.read, hd]
          · simp [Memory.read, hd, Ne.symm hd]
      · next hne hca =>
        simp only [Memory.read, ih ht]
        by_cases hd : a = d
        · subst hd
          simp [Ne.symm hca]
        · simp [hd]

/-- A read after a write gives the value written there, and leaves every other cell alone (20_memory.md R64, R68). -/
theorem Memory.read_write {size : Nat} {m : Memory} (h : Memory.wf size m = true) (c : Nat) (v : Word) (d : Nat) :
    Memory.read (Memory.write m c v) d = if d = c then v else Memory.read m d :=
  Memory.read_write_from h v d

/-- An address in bounds is a cell number below `P_DM_SIZE`, and its signed value is that number (20_memory.md R61). -/
theorem inBounds_cellOf {size : Nat} {ea : Word33} (h : inBounds size ea = true) :
    cellOf ea < size ∧ ea.toInt = (cellOf ea : Int) := by
  simp only [inBounds, Bool.and_eq_true, decide_eq_true_eq] at h
  have hlt := ea.isLt
  have hint := BitVec.toInt_eq_toNat_cond ea
  simp only [cellOf]
  split at hint <;> omega

/-- The store operation keeps the canonical form when its address is in bounds. -/
theorem storeCell_wf {s : State} {ea : Word33} (h : Memory.wf s.params.dmSize s.dm = true)
    (hin : inBounds s.params.dmSize ea = true) (v : Word) :
    Memory.wf s.params.dmSize (s.storeCell ea v).dm = true :=
  Memory.wf_write h (inBounds_cellOf hin).1 v

end Sys2Proof.Machine
end

