-- ==== Sys2Proof/Laws/Operands.lean ====
section
/-! SUPPORT. The ranges of the words, in numerals, and what the arithmetic of 00_scope.md R11 and the effective address give. -/

namespace Sys2Proof.Machine

theorem word_toNat_lt (a : Word) : a.toNat < 4294967296 := a.isLt

theorem word_toInt_lt (a : Word) : a.toInt < 2147483648 := a.toInt_lt

theorem word_le_toInt (a : Word) : -2147483648 ≤ a.toInt := a.le_toInt

theorem count_toNat_lt (a : Count) : a.toNat < 4294967296 := a.isLt

theorem count_toNat_add_one (a : Count) (h : a.toNat < 4294967295) : (a + 1).toNat = a.toNat + 1 := by
  have h1 : (a + 1).toNat = (a.toNat + 1) % 4294967296 := BitVec.toNat_add a 1
  omega

@[simp] theorem wrap32_add (a b : Word) : wrap32 (s32 a + s32 b) = a + b := by
  simp [wrap32, s32, BitVec.ofInt_add]

@[simp] theorem wrap32_sub (a b : Word) : wrap32 (s32 a - s32 b) = a - b := by
  apply BitVec.eq_of_toInt_eq
  simp [wrap32, s32]

@[simp] theorem wrap32_mul (a b : Word) : wrap32 (s32 a * s32 b) = a * b := by
  simp [wrap32, s32, BitVec.ofInt_mul]

/-- The sum of a base and an immediate fits 33 bits, so the effective address is exact (42_loadstore.md R180). -/
theorem effectiveAddress_toInt (base : Word) (imm : Imm) :
    (effectiveAddress base imm).toInt = base.toInt + imm.toInt := by
  have h1 := word_toInt_lt base
  have h2 := word_le_toInt base
  have h3 := word_toInt_lt imm
  have h4 := word_le_toInt imm
  simp only [effectiveAddress, s32, BitVec.toInt_ofInt]
  rw [Int.bmod_eq_of_le] <;> omega

end Sys2Proof.Machine
end

