-- ==== Sys2Proof/Laws/Ops.lean ====
section
/-! SUPPORT. For each shared operation, one lemma that says everything it can answer; later proofs cite these instead of
unfolding the operation. -/

namespace Sys2Proof.Machine

/-! ### Fault entry and its rollback -/

theorem settle_next {s0 t : State} {r : Except Raised State} :
    settle s0 r = .next t ↔ r = .ok t ∨ ∃ f, r = .error f ∧ t = takeFault s0 f := by
  cases r with
  | ok u => simp [settle]
  | error f => simp [settle, eq_comm (a := t)]

theorem settle_answers (s0 : State) (r : Except Raised State) : ∃ t, settle s0 r = .next t := by
  cases r with
  | ok u => exact ⟨u, rfl⟩
  | error f => exact ⟨takeFault s0 f, rfl⟩

@[simp] theorem settle_ok (s0 t : State) : settle s0 (.ok t) = .next t := rfl

@[simp] theorem settle_error (s0 : State) (f : Raised) : settle s0 (.error f) = .next (takeFault s0 f) := rfl

/-! ### Scoreboard -/

theorem acquire_some (r : Reg) (s : State) : acquire (some r) s = s.setValid r false := rfl

theorem acquire_none (s : State) : acquire none s = s := rfl

theorem sbRelease_ok {r : Reg} {p : Word} {s t : State} :
    sbRelease r p s = .ok t ↔ s.validAt r = false ∧ t = s.setValid r true := by
  unfold sbRelease
  split <;> simp_all [eq_comm (a := t)]

theorem sbRelease_error {r : Reg} {p : Word} {s : State} {f : Raised} :
    sbRelease r p s = .error f ↔ s.validAt r = true ∧ f = ⟨.sbInvariant, p, regInfo r⟩ := by
  unfold sbRelease
  split <;> simp_all [eq_comm (a := f)]

theorem releaseAt_ok {policy : Release} {r : Reg} {p : Word} {s t : State} :
    releaseAt policy r p s = .ok t ↔
      (s.cfgRelease = policy ∧ s.validAt r = false ∧ t = s.setValid r true) ∨ (s.cfgRelease ≠ policy ∧ t = s) := by
  unfold releaseAt
  split
  · next h => simp [sbRelease_ok, h]
  · next h => simp [h, eq_comm (a := t)]

theorem releaseAt_error {policy : Release} {r : Reg} {p : Word} {s : State} {f : Raised} :
    releaseAt policy r p s = .error f ↔
      s.cfgRelease = policy ∧ s.validAt r = true ∧ f = ⟨.sbInvariant, p, regInfo r⟩ := by
  unfold releaseAt
  split
  · next h => simp [sbRelease_error, h]
  · next h => simp [h]

/-! ### Decode -/

theorem issue_ok {src1 src2 dst : Option Reg} {s t : State} :
    issue src1 src2 dst s = .ok t ↔
      (dataHazard src1 src2 dst s = true ∧ t = s.setD { s.lD with stalled := true }) ∨
      (dataHazard src1 src2 dst s = false ∧
        t = acquire dst (s.setD { s.lD with stalled := false, a := operand s src1 s.lD.a, b := operand s src2 s.lD.b })) := by
  unfold issue
  split <;> simp_all [eq_comm (a := t)]

theorem issue_ne_error (src1 src2 dst : Option Reg) (s : State) (f : Raised) : issue src1 src2 dst s ≠ .error f := by
  unfold issue
  split <;> simp

theorem controlDecode_fault {op : OpBits} {s : State} (h : s.cfgUnimpl = .fault) :
    controlDecode op s = .error ⟨.unimpl, s.lD.pc, opInfo op⟩ := by
  simp [controlDecode, h]

/-- Under `Nop` a control opcode issues with no read, no acquire and no hazard (43_control.md R190). -/
theorem controlDecode_nop {op : OpBits} {s : State} (h : s.cfgUnimpl = .nop) :
    controlDecode op s = .ok (s.setD { s.lD with stalled := false }) := by
  simp [controlDecode, h, issue, dataHazard, pending, operand, acquire]

/-! ### Execute -/

theorem executeWriter_ok {rd : Reg} {act : Latch → Latch} {s t : State} :
    executeWriter rd act s = .ok t ↔
      (s.cfgRelease = .ex ∧ s.validAt rd = false ∧ t = (s.setValid rd true).setE (act s.lE)) ∨
      (s.cfgRelease = .wb ∧ t = s.setE (act s.lE)) := by
  unfold executeWriter releaseAt sbRelease
  cases hc : s.cfgRelease <;> by_cases hv : s.validAt rd = true <;> simp [hv, eq_comm (a := t)]

theorem executeWriter_error {rd : Reg} {act : Latch → Latch} {s : State} {f : Raised} :
    executeWriter rd act s = .error f ↔
      s.cfgRelease = .ex ∧ s.validAt rd = true ∧ f = ⟨.sbInvariant, s.lE.pc, regInfo rd⟩ := by
  unfold executeWriter releaseAt sbRelease
  cases hc : s.cfgRelease <;> by_cases hv : s.validAt rd = true <;> simp [hv, eq_comm (a := f)]

theorem executeTwoTicks_start {rd : Reg} {act : Latch → Latch} {s : State} (h : s.lE.busy = false) :
    executeTwoTicks rd act s = .ok (mulStart s) := by
  simp [executeTwoTicks, h]

theorem executeTwoTicks_finish {rd : Reg} {act : Latch → Latch} {s : State} (h : s.lE.busy = true) :
    executeTwoTicks rd act s = executeWriter rd act (mulFinish s) := by
  simp [executeTwoTicks, h]

/-! ### Memory and Writeback -/

theorem checkBounds_ok {access : State → State} {s t : State} :
    checkBounds access s = .ok t ↔ inBounds s.params.dmSize s.lM.ea = true ∧ t = access s := by
  unfold checkBounds
  split <;> simp_all [eq_comm (a := t)]

theorem checkBounds_error {access : State → State} {s : State} {f : Raised} :
    checkBounds access s = .error f ↔ inBounds s.params.dmSize s.lM.ea = false ∧ f = ⟨.bounds, s.lM.pc, s.lM.ea⟩ := by
  unfold checkBounds
  split <;> simp_all [eq_comm (a := f)]

theorem commit_ok {rd : Reg} {s t : State} :
    commit rd s = .ok t ↔
      (s.cfgRelease = .wb ∧ s.validAt rd = false ∧ t = ((s.setValid rd true).setReg rd s.lW.res).retire) ∨
      (s.cfgRelease = .ex ∧ t = (s.setReg rd s.lW.res).retire) := by
  unfold commit releaseAt sbRelease
  cases hc : s.cfgRelease <;> by_cases hv : s.validAt rd = true <;> simp [hv, eq_comm (a := t)]

theorem commit_error {rd : Reg} {s : State} {f : Raised} :
    commit rd s = .error f ↔
      s.cfgRelease = .wb ∧ s.validAt rd = true ∧ f = ⟨.sbInvariant, s.lW.pc, regInfo rd⟩ := by
  unfold commit releaseAt sbRelease
  cases hc : s.cfgRelease <;> by_cases hv : s.validAt rd = true <;> simp [hv, eq_comm (a := f)]

/-! ### Fetch -/

/-- Everything the Fetch step can do: nothing while it is held, a load with Decode frozen, or a load and a hand-off. -/
theorem fetchAct_cases (s : State) :
    ((s.lF.busy || s.lF.stalled) = true ∧ fetchAct s = s) ∨
    ((s.lF.busy || s.lF.stalled) = false ∧ s.lD.stalled = true ∧ fetchAct s = s.setF s.fetchLatch) ∨
    ((s.lF.busy || s.lF.stalled) = false ∧ s.lD.stalled = false ∧
      fetchAct s =
        ((s.setF s.fetchLatch).setPc (if s.fetchWord?.isSome then s.pc + s.params.pcStep else s.pc)).setD s.fetchLatch) := by
  by_cases hF : (s.lF.busy || s.lF.stalled) = true
  · exact .inl ⟨hF, by unfold fetchAct; rw [if_pos hF]⟩
  · cases hD : s.lD.stalled with
    | true => exact .inr (.inl ⟨by simpa using hF, rfl, by simp [fetchAct, hF, hD]⟩)
    | false =>
      refine .inr (.inr ⟨by simpa using hF, rfl, ?_⟩)
      cases hw : s.fetchWord?.isSome
      · simp [fetchAct, hF, hD, hw]
        rfl
      · simp [fetchAct, hF, hD, hw]

/-! ### The stage that runs -/

section
variable {de ex me wb : State → Except Raised State} {s : State}

theorem perStage_fetch (h : s.stage = .fetch) : perStage de ex me wb s = .next (fetchAct s) := by simp [perStage, h]

theorem perStage_decode (h : s.stage = .decode) : perStage de ex me wb s = settle s (de s) := by simp [perStage, h]

theorem perStage_execute (h : s.stage = .execute) : perStage de ex me wb s = settle s (ex s) := by simp [perStage, h]

theorem perStage_memory (h : s.stage = .memory) : perStage de ex me wb s = settle s (me s) := by simp [perStage, h]

theorem perStage_writeback (h : s.stage = .writeback) : perStage de ex me wb s = settle s (wb s) := by simp [perStage, h]

theorem perStage_answers : ∃ t, perStage de ex me wb s = .next t := settle_answers s _

end

end Sys2Proof.Machine
end

