-- ==== Sys2Proof/Laws/PerInstr.lean ====
section
/-! SUPPORT. Facts about every instruction as syntax, one lemma for each constructor. -/

namespace Sys2Proof

/-- Each field of a word put together from five is read back at its own place. -/
theorem append_fields (a b c d : BitVec 4) (e : BitVec 32) :
    (a ++ b ++ c ++ d ++ e).extractLsb' 44 4 = a ∧ (a ++ b ++ c ++ d ++ e).extractLsb' 40 4 = b ∧
    (a ++ b ++ c ++ d ++ e).extractLsb' 36 4 = c ∧ (a ++ b ++ c ++ d ++ e).extractLsb' 32 4 = d ∧
    (a ++ b ++ c ++ d ++ e).extractLsb' 0 32 = e := by
  refine ⟨?_, ?_, ?_, ?_, ?_⟩ <;>
    (apply BitVec.eq_of_getLsbD_eq
     intro i hi
     simp only [BitVec.getLsbD_extractLsb', BitVec.getLsbD_append, hi, decide_true, Bool.true_and])
  · simp [show ¬44 + i < 32 by omega, show ¬44 + i - 32 < 4 by omega, show ¬44 + i - 32 - 4 < 4 by omega,
      show ¬44 + i - 32 - 4 - 4 < 4 by omega, show 44 + i - 32 - 4 - 4 - 4 = i by omega]
  · simp [show ¬40 + i < 32 by omega, show ¬40 + i - 32 < 4 by omega, show ¬40 + i - 32 - 4 < 4 by omega,
      show 40 + i - 32 - 4 - 4 = i by omega, hi]
  · simp [show ¬36 + i < 32 by omega, show ¬36 + i - 32 < 4 by omega, show 36 + i - 32 - 4 = i by omega, hi]
  · simp [show ¬32 + i < 32 by omega, show 32 + i - 32 = i by omega, hi]
  · simp [hi]

/-- The fields of a record's word are the record's (30_encoding.md R81). -/
theorem Record.ofWord_toWord (r : Record) : Record.ofWord r.toWord = r := by
  obtain ⟨op, rd, rs1, rs2, imm⟩ := r
  obtain ⟨h1, h2, h3, h4, h5⟩ := append_fields op (.ofFin rd) (.ofFin rs1) (.ofFin rs2) imm
  exact Record.mk.injEq .. ▸ ⟨h1, congrArg BitVec.toFin h2, congrArg BitVec.toFin h3, congrArg BitVec.toFin h4, h5⟩

end Sys2Proof

namespace Sys2Proof.Laws

/-- The decoder reads back what the encoder writes (R81 to R84). -/
def EncodeDecode.Statement (i : Instr) : Prop := decode (encode i) = .ok i

/-- The encoder's record is canonical: a known opcode, and 0 in every field the opcode does not use (R84). -/
def CanonicalRecord.Statement (i : Instr) : Prop := i.toRecord.wellFormed = true

/-- The predicates `writes`, `reads1` and `reads2` are the columns of R83's table, and name the record's own fields; BZ,
BNZ, JUMP and HALT use none. -/
def PredicatesOfTable.Statement (i : Instr) : Prop :=
  Machine.dstOf i = (if OpBits.usesRd i.opcode then some i.toRecord.rd else none) ∧
  Machine.src1Of i = (if OpBits.usesRs1 i.opcode then some i.toRecord.rs1 else none) ∧
  Machine.src2Of i = (if OpBits.usesRs2 i.opcode then some i.toRecord.rs2 else none)

/-! ### EncodeDecode -/

theorem decode_encode_of_record {i : Instr} (h : i.toRecord.instr = .ok i) : EncodeDecode.Statement i := by
  rw [EncodeDecode.Statement, decode, encode, Record.ofWord_toWord, h]

theorem EncodeDecode.movc (rd : Reg) (imm : Word) : EncodeDecode.Statement (.movc rd imm) := decode_encode_of_record rfl
theorem EncodeDecode.add (rd rs1 rs2 : Reg) : EncodeDecode.Statement (.add rd rs1 rs2) := decode_encode_of_record rfl
theorem EncodeDecode.sub (rd rs1 rs2 : Reg) : EncodeDecode.Statement (.sub rd rs1 rs2) := decode_encode_of_record rfl
theorem EncodeDecode.mul (rd rs1 rs2 : Reg) : EncodeDecode.Statement (.mul rd rs1 rs2) := decode_encode_of_record rfl
theorem EncodeDecode.and (rd rs1 rs2 : Reg) : EncodeDecode.Statement (.and rd rs1 rs2) := decode_encode_of_record rfl
theorem EncodeDecode.or (rd rs1 rs2 : Reg) : EncodeDecode.Statement (.or rd rs1 rs2) := decode_encode_of_record rfl
theorem EncodeDecode.xor (rd rs1 rs2 : Reg) : EncodeDecode.Statement (.xor rd rs1 rs2) := decode_encode_of_record rfl
theorem EncodeDecode.load (rd rs1 : Reg) (imm : Word) : EncodeDecode.Statement (.load rd rs1 imm) := decode_encode_of_record rfl
theorem EncodeDecode.store (rs1 rs2 : Reg) (imm : Word) : EncodeDecode.Statement (.store rs1 rs2 imm) := decode_encode_of_record rfl
theorem EncodeDecode.bz : EncodeDecode.Statement .bz := decode_encode_of_record rfl
theorem EncodeDecode.bnz : EncodeDecode.Statement .bnz := decode_encode_of_record rfl
theorem EncodeDecode.jump : EncodeDecode.Statement .jump := decode_encode_of_record rfl
theorem EncodeDecode.halt : EncodeDecode.Statement .halt := decode_encode_of_record rfl

/-! ### CanonicalRecord -/

theorem CanonicalRecord.movc (rd : Reg) (imm : Word) : CanonicalRecord.Statement (.movc rd imm) := by
  simp [CanonicalRecord.Statement, Record.wellFormed, Record.opcodeKnown, Record.unusedFieldsZero, OpBits.usesRd,
    OpBits.usesRs1, OpBits.usesRs2, OpBits.usesImm, Instr.toRecord, Instr.opcode]
theorem CanonicalRecord.add (rd rs1 rs2 : Reg) : CanonicalRecord.Statement (.add rd rs1 rs2) := by
  simp [CanonicalRecord.Statement, Record.wellFormed, Record.opcodeKnown, Record.unusedFieldsZero, OpBits.usesRd,
    OpBits.usesRs1, OpBits.usesRs2, OpBits.usesImm, Instr.toRecord, Instr.opcode]
theorem CanonicalRecord.sub (rd rs1 rs2 : Reg) : CanonicalRecord.Statement (.sub rd rs1 rs2) := by
  simp [CanonicalRecord.Statement, Record.wellFormed, Record.opcodeKnown, Record.unusedFieldsZero, OpBits.usesRd,
    OpBits.usesRs1, OpBits.usesRs2, OpBits.usesImm, Instr.toRecord, Instr.opcode]
theorem CanonicalRecord.mul (rd rs1 rs2 : Reg) : CanonicalRecord.Statement (.mul rd rs1 rs2) := by
  simp [CanonicalRecord.Statement, Record.wellFormed, Record.opcodeKnown, Record.unusedFieldsZero, OpBits.usesRd,
    OpBits.usesRs1, OpBits.usesRs2, OpBits.usesImm, Instr.toRecord, Instr.opcode]
theorem CanonicalRecord.and (rd rs1 rs2 : Reg) : CanonicalRecord.Statement (.and rd rs1 rs2) := by
  simp [CanonicalRecord.Statement, Record.wellFormed, Record.opcodeKnown, Record.unusedFieldsZero, OpBits.usesRd,
    OpBits.usesRs1, OpBits.usesRs2, OpBits.usesImm, Instr.toRecord, Instr.opcode]
theorem CanonicalRecord.or (rd rs1 rs2 : Reg) : CanonicalRecord.Statement (.or rd rs1 rs2) := by
  simp [CanonicalRecord.Statement, Record.wellFormed, Record.opcodeKnown, Record.unusedFieldsZero, OpBits.usesRd,
    OpBits.usesRs1, OpBits.usesRs2, OpBits.usesImm, Instr.toRecord, Instr.opcode]
theorem CanonicalRecord.xor (rd rs1 rs2 : Reg) : CanonicalRecord.Statement (.xor rd rs1 rs2) := by
  simp [CanonicalRecord.Statement, Record.wellFormed, Record.opcodeKnown, Record.unusedFieldsZero, OpBits.usesRd,
    OpBits.usesRs1, OpBits.usesRs2, OpBits.usesImm, Instr.toRecord, Instr.opcode]
theorem CanonicalRecord.load (rd rs1 : Reg) (imm : Word) : CanonicalRecord.Statement (.load rd rs1 imm) := by
  simp [CanonicalRecord.Statement, Record.wellFormed, Record.opcodeKnown, Record.unusedFieldsZero, OpBits.usesRd,
    OpBits.usesRs1, OpBits.usesRs2, OpBits.usesImm, Instr.toRecord, Instr.opcode]
theorem CanonicalRecord.store (rs1 rs2 : Reg) (imm : Word) : CanonicalRecord.Statement (.store rs1 rs2 imm) := by
  simp [CanonicalRecord.Statement, Record.wellFormed, Record.opcodeKnown, Record.unusedFieldsZero, OpBits.usesRd,
    OpBits.usesRs1, OpBits.usesRs2, OpBits.usesImm, Instr.toRecord, Instr.opcode]
theorem CanonicalRecord.bz : CanonicalRecord.Statement .bz := by
  simp [CanonicalRecord.Statement, Record.wellFormed, Record.opcodeKnown, Record.unusedFieldsZero, OpBits.usesRd,
    OpBits.usesRs1, OpBits.usesRs2, OpBits.usesImm, Instr.toRecord, Instr.opcode]
theorem CanonicalRecord.bnz : CanonicalRecord.Statement .bnz := by
  simp [CanonicalRecord.Statement, Record.wellFormed, Record.opcodeKnown, Record.unusedFieldsZero, OpBits.usesRd,
    OpBits.usesRs1, OpBits.usesRs2, OpBits.usesImm, Instr.toRecord, Instr.opcode]
theorem CanonicalRecord.jump : CanonicalRecord.Statement .jump := by
  simp [CanonicalRecord.Statement, Record.wellFormed, Record.opcodeKnown, Record.unusedFieldsZero, OpBits.usesRd,
    OpBits.usesRs1, OpBits.usesRs2, OpBits.usesImm, Instr.toRecord, Instr.opcode]
theorem CanonicalRecord.halt : CanonicalRecord.Statement .halt := by
  simp [CanonicalRecord.Statement, Record.wellFormed, Record.opcodeKnown, Record.unusedFieldsZero, OpBits.usesRd,
    OpBits.usesRs1, OpBits.usesRs2, OpBits.usesImm, Instr.toRecord, Instr.opcode]

/-! ### PredicatesOfTable -/

theorem PredicatesOfTable.movc (rd : Reg) (imm : Word) : PredicatesOfTable.Statement (.movc rd imm) := ⟨rfl, rfl, rfl⟩
theorem PredicatesOfTable.add (rd rs1 rs2 : Reg) : PredicatesOfTable.Statement (.add rd rs1 rs2) := ⟨rfl, rfl, rfl⟩
theorem PredicatesOfTable.sub (rd rs1 rs2 : Reg) : PredicatesOfTable.Statement (.sub rd rs1 rs2) := ⟨rfl, rfl, rfl⟩
theorem PredicatesOfTable.mul (rd rs1 rs2 : Reg) : PredicatesOfTable.Statement (.mul rd rs1 rs2) := ⟨rfl, rfl, rfl⟩
theorem PredicatesOfTable.and (rd rs1 rs2 : Reg) : PredicatesOfTable.Statement (.and rd rs1 rs2) := ⟨rfl, rfl, rfl⟩
theorem PredicatesOfTable.or (rd rs1 rs2 : Reg) : PredicatesOfTable.Statement (.or rd rs1 rs2) := ⟨rfl, rfl, rfl⟩
theorem PredicatesOfTable.xor (rd rs1 rs2 : Reg) : PredicatesOfTable.Statement (.xor rd rs1 rs2) := ⟨rfl, rfl, rfl⟩
theorem PredicatesOfTable.load (rd rs1 : Reg) (imm : Word) : PredicatesOfTable.Statement (.load rd rs1 imm) := ⟨rfl, rfl, rfl⟩
theorem PredicatesOfTable.store (rs1 rs2 : Reg) (imm : Word) : PredicatesOfTable.Statement (.store rs1 rs2 imm) := ⟨rfl, rfl, rfl⟩
theorem PredicatesOfTable.bz : PredicatesOfTable.Statement .bz := ⟨rfl, rfl, rfl⟩
theorem PredicatesOfTable.bnz : PredicatesOfTable.Statement .bnz := ⟨rfl, rfl, rfl⟩
theorem PredicatesOfTable.jump : PredicatesOfTable.Statement .jump := ⟨rfl, rfl, rfl⟩
theorem PredicatesOfTable.halt : PredicatesOfTable.Statement .halt := ⟨rfl, rfl, rfl⟩

end Sys2Proof.Laws
end

