-- ==== Sys2Proof/Laws/Step.lean ====
section
/-! SUPPORT. What the tick and the clock edge can answer. -/

namespace Sys2Proof.Machine

/-- The rest of the tick runs exactly when the part before it raised nothing. -/
theorem thenRunning_next {o : Result} {rest : State → Result} {t : State} :
    thenRunning o rest = .next t ↔
      ∃ u, o = .next u ∧ ((u.status = .running ∧ rest u = .next t) ∨ (u.status ≠ .running ∧ t = u)) := by
  cases o with
  | next u =>
    by_cases hu : u.status = .running <;> simp [thenRunning, hu, eq_comm (a := t)]
  | fault r => simp [thenRunning]
  | refused r => simp [thenRunning]

theorem thenRunning_running {u : State} {rest : State → Result} (h : u.status = .running) :
    thenRunning (.next u) rest = rest u := by simp [thenRunning, h]

theorem thenRunning_stopped {u : State} {rest : State → Result} (h : u.status ≠ .running) :
    thenRunning (.next u) rest = .next u := by simp [thenRunning, h]

/-- Every meaning answers a next state; a fault of the spec is one (60_exceptions.md R210). -/
theorem exec_answers (i : Instr) (s : State) : ∃ t, exec i s = .next t := by
  cases i <;> exact perStage_answers

/-- Fetch does the same with every record (40_pipeline.md R135). -/
theorem exec_fetch (i : Instr) {s : State} (h : s.stage = .fetch) : exec i s = .next (fetchAct s) := by
  cases i <;> exact perStage_fetch h

/-- The Fetch step loads and hands on whatever the record at the fetch index is. -/
theorem stepF_eq (s : State) : stepF s = .next (fetchAct (s.atStage .fetch)) := by
  unfold stepF
  split
  · exact exec_fetch _ (by simp)
  · rfl

theorem configOk_iff {p : Params} {n : Nat} :
    configOk p n = true ↔ p.supported = true ∧ programLengthOk p n = true := by simp [configOk]

theorem step_of_config {s : State} (hc : configOk s.params s.progLen = true) :
    step s =
      if s.rst then .next (resetEdge s)
      else match s.status with
        | .running => tick s
        | .complete => .next s
        | .faulted => .next s := by
  obtain ⟨hp, hlen⟩ := configOk_iff.1 hc
  exact (if_pos hp).trans (if_pos hlen)

theorem step_of_ticks {s : State} (h : Ticks s) : step s = tick s := by
  obtain ⟨hr, hrst, hc⟩ := h
  simp [step_of_config hc, hr, hrst]

theorem step_of_reset {s : State} (hc : configOk s.params s.progLen = true) (hrst : s.rst = true) :
    step s = .next (resetEdge s) := by
  simp [step_of_config hc, hrst]

/-- A configuration that is not run is refused, by one of two names. -/
theorem step_refused {s : State} (hc : configOk s.params s.progLen = false) :
    step s = .refused (if s.params.supported then .programTooLong else .unsupportedParameters) := by
  cases hp : s.params.supported <;> simp_all [configOk, step, clockEdge]

/-- Everything a clock edge can answer with a next state: a reset, a tick, or nothing at all. -/
theorem step_next_cases {s t : State} (h : step s = .next t) :
    configOk s.params s.progLen = true ∧
      ((s.rst = true ∧ t = resetEdge s) ∨ (Ticks s ∧ tick s = .next t) ∨
        (s.rst = false ∧ s.status ≠ .running ∧ t = s)) := by
  cases hc : configOk s.params s.progLen with
  | false => simp [step_refused hc] at h
  | true =>
    refine ⟨rfl, ?_⟩
    rw [step_of_config hc] at h
    cases hrst : s.rst with
    | true => exact .inl ⟨rfl, by simpa [hrst, eq_comm] using h⟩
    | false =>
      cases hs : s.status with
      | running => exact .inr (.inl ⟨⟨hs, hrst, hc⟩, by simpa [hrst, hs] using h⟩)
      | complete => exact .inr (.inr ⟨rfl, by simp, by simpa [hrst, hs, eq_comm] using h⟩)
      | faulted => exact .inr (.inr ⟨rfl, by simp, by simpa [hrst, hs, eq_comm] using h⟩)

end Sys2Proof.Machine
end

