-- ==== Sys2Proof/Tests/Slice0.lean ====
section
/-! SUPPORT. Tests with expected values from 95_test_vectors.md or worked out by hand from the rules, and for every statement
with hypotheses a concrete state and operands that meet them (witness_<statement>). -/

namespace Sys2Proof.Tests

open Sys2Proof.Machine

/-! ### Well-formedness: each check refuses an ill-formed term -/

theorem test_reserved_opcode_is_ill_formed : (Record.mk 0xD 0 0 0 0).wellFormed = false := by decide
theorem test_unused_rd_is_ill_formed : (Record.mk 0x8 1 1 2 7).wellFormed = false := by decide
theorem test_unused_rs1_is_ill_formed : (Record.mk 0x0 1 7 0 5).wellFormed = false := by decide
theorem test_unused_rs2_is_ill_formed : (Record.mk 0x7 2 0 1 100).wellFormed = false := by decide
theorem test_unused_imm_is_ill_formed : (Record.mk 0x1 1 2 3 1).wellFormed = false := by decide
theorem test_too_long_program_is_ill_formed : programLengthOk Config.params 1073740824 = false := by decide
theorem test_zero_step_is_ill_formed : Params.supported { Config.params with pcStep := 0 } = false := by decide
theorem test_eight_registers_are_ill_formed : Params.supported { Config.params with nregs := 8 } = false := by decide
theorem test_longest_program_is_well_formed : programLengthOk Config.params 1073740823 = true := by decide
theorem test_canonical_record_is_well_formed : (Record.mk 0x8 0 1 2 7).wellFormed = true := by decide

/-! ### Decoding: words from 95_test_vectors.md, "Encoding vectors" -/

theorem test_decode_movc : decode 0x0F00FFFFFFFF#48 = .ok (.movc 15 0xFFFFFFFF#32) := by rfl
theorem test_decode_movc_noncanonical : decode 0x017300000005#48 = .ok (.movc 1 5#32) := by rfl
theorem test_decode_add : decode 0x112300000000#48 = .ok (.add 1 2 3) := by rfl
theorem test_decode_sub : decode 0x245600000000#48 = .ok (.sub 4 5 6) := by rfl
theorem test_decode_mul : decode 0x378900000000#48 = .ok (.mul 7 8 9) := by rfl
theorem test_decode_and : decode 0x4ABC00000000#48 = .ok (.and 10 11 12) := by rfl
theorem test_decode_or : decode 0x5DEF00000000#48 = .ok (.or 13 14 15) := by rfl
theorem test_decode_xor : decode 0x600000000000#48 = .ok (.xor 0 0 0) := by rfl
theorem test_decode_load : decode 0x7230FFFFFFFC#48 = .ok (.load 2 3 0xFFFFFFFC#32) := by rfl
theorem test_decode_store : decode 0x80127FFFFFFF#48 = .ok (.store 1 2 0x7FFFFFFF#32) := by rfl
theorem test_decode_bz : decode 0x900000000008#48 = .ok .bz := by rfl
theorem test_decode_bnz : decode 0xA00000000008#48 = .ok .bnz := by rfl
theorem test_decode_jump : decode 0xB00000000000#48 = .ok .jump := by rfl
theorem test_decode_halt : decode 0xC00000000000#48 = .ok .halt := by rfl
theorem test_decode_reserved : decode 0xE12345678ABC#48 = .error (.reservedOpcode 0xE) := by rfl
theorem test_encode_store : encode (.store 1 2 0x7FFFFFFF#32) = 0x80127FFFFFFF#48 := by decide
theorem test_encode_load : encode (.load 2 3 0xFFFFFFFC#32) = 0x7230FFFFFFFC#48 := by decide

/-! ### One stage of one instruction -/

/-- Execute of a latch with operands `a` and `b`, under WB so that nothing is released. -/
def executing (a b : Word) : State :=
  { State.resetWith [0] .wb .fault with stage := .execute, lE := { Latch.empty with occ := true, a := a, b := b } }

/-- The result left in `L.E`. -/
def resE : Result → Option Word
  | .next t => some t.lE.res
  | _ => none

/-- The address left in `L.E`. -/
def eaE : Result → Option Word33
  | .next t => some t.lE.ea
  | _ => none

theorem test_movc_whole_immediate : resE (exec (.movc 1 0x80000000#32) (executing 0 0)) = some 0x80000000#32 := by decide
theorem test_add_wraps : resE (exec (.add 1 2 3) (executing 0x7FFFFFFF#32 1)) = some 0x80000000#32 := by decide
theorem test_add_drops_carry : resE (exec (.add 1 2 3) (executing 0xFFFFFFFF#32 1)) = some 0 := by decide
theorem test_sub_order : resE (exec (.sub 1 2 3) (executing 6 7)) = some 0xFFFFFFFF#32 := by decide
theorem test_sub_wraps : resE (exec (.sub 1 2 3) (executing 0x80000000#32 1)) = some 0x7FFFFFFF#32 := by decide
theorem test_and : resE (exec (.and 3 1 2) (executing 0xC 0xA)) = some 8 := by decide
theorem test_or : resE (exec (.or 3 1 2) (executing 0xC 0xA)) = some 0xE := by decide
theorem test_xor : resE (exec (.xor 3 1 2) (executing 0xC 0xA)) = some 6 := by decide

/-- Execute of a MUL that has started. -/
def multiplying (a b : Word) : State :=
  let s := executing a b
  { s with lE := { s.lE with op := 0x3, busy := true }, lF := { s.lF with stalled := true } }

theorem test_mul_low_half :
    resE (exec (.mul 1 2 3) (multiplying 0x80000000#32 0xFFFFFFFF#32)) = some 0x80000000#32 := by decide
theorem test_mul_start_computes_nothing : resE (exec (.mul 1 2 3) (executing 6 7)) = some 0 := by decide
theorem test_load_address_does_not_wrap :
    eaE (exec (.load 2 1 1) (executing 0x7FFFFFFF#32 0)) = some 0x080000000#33 := by decide
theorem test_load_lowest_address :
    eaE (exec (.load 2 1 0x80000000#32) (executing 0x80000000#32 0)) = some 0x100000000#33 := by decide
theorem test_store_base_is_rs2 : eaE (exec (.store 1 2 0xFFFFFFFF#32) (executing 9 0xFA0)) = some 3999#33 := by decide

/-- Memory of a latch with address `ea` and first operand 7; cell 3999 holds 5. -/
def accessing (ea : Word33) : State :=
  { State.resetWith [0] .wb .fault with
    stage := .memory, dm := [(3999, 5)], lM := { Latch.empty with occ := true, pc := 4012, a := 7, ea := ea } }

/-- Status, fault record, cell 3999 and the memory result after a stage. -/
def accessOutcome : Result → Option (Status × FaultCode × Word33 × Word × Word)
  | .next t => some (t.status, t.faultCode, t.faultInfo, Memory.read t.dm 3999, t.lM.res)
  | _ => none

theorem test_load_last_cell :
    accessOutcome (exec (.load 2 0 0) (accessing 3999)) = some (.running, .none, 0, 5, 5) := by decide
theorem test_load_out_of_bounds :
    accessOutcome (exec (.load 2 0 0) (accessing 0x1FFFFFFFF#33)) = some (.faulted, .bounds, 0x1FFFFFFFF#33, 5, 0) := by
  decide
theorem test_store_last_cell :
    accessOutcome (exec (.store 1 0 0) (accessing 3999)) = some (.running, .none, 0, 7, 0) := by decide

/-- Decode of a latch at pc 4004, with register 1 pending. -/
def decoding (unimpl : Unimpl) : State :=
  { State.resetWith [0, 0] .ex unimpl with
    stage := .decode, regs := (Vector.replicate 16 0).set 1 6, valid := (Vector.replicate 16 true).set 1 false
    lD := { Latch.empty with occ := true, pc := 4004 } }

/-- Status, fault registers and the `stalled` flag of `L.D` after a stage. -/
def decodeOutcome : Result → Option (Status × FaultCode × Word × Word33 × Bool)
  | .next t => some (t.status, t.faultCode, t.faultPc, t.faultInfo, t.lD.stalled)
  | _ => none

theorem test_bz_raises_unimpl :
    decodeOutcome (exec .bz (decoding .fault)) = some (.faulted, .unimpl, 4004, 9, false) := by decide
theorem test_bnz_raises_unimpl :
    decodeOutcome (exec .bnz (decoding .fault)) = some (.faulted, .unimpl, 4004, 0xA, false) := by decide
theorem test_jump_issues_under_nop : decodeOutcome (exec .jump (decoding .nop)) = some (.running, .none, 0, 0, false) := by
  decide
theorem test_halt_raises_unimpl :
    decodeOutcome (exec .halt (decoding .fault)) = some (.faulted, .unimpl, 4004, 0xC, false) := by decide
theorem test_pending_source_stalls :
    decodeOutcome (exec (.add 2 1 1) (decoding .fault)) = some (.running, .none, 0, 0, true) := by decide

/-! ### The state after one step -/

/-- The next state of a step, for states that have one. -/
def after (s : State) : State :=
  match step s with
  | .next t => t
  | _ => s

/-- Whether a step answers a next state. -/
def steps (s : State) : Bool :=
  match step s with
  | .next _ => true
  | _ => false

theorem step_after {s : State} (h : steps s = true) : step s = .next (after s) := by
  unfold steps at h
  unfold after
  cases hs : step s <;> simp_all

/-- A record placed where the next step fetches is in `L.D` after it. -/
theorem test_placed_record_is_fetched :
    (after (State.reset.withFetchWord 48 0x112300000000)).lD = Latch.ofRecord 4000 ⟨1, 1, 2, 3, 0⟩ := by decide

/-- P1 of 95_test_vectors.md under WB after tick 2: `MOVC R1,#5` is in `L.E`, `ADD R2,R1,R1` waits in `L.D`. -/
def p1AfterTick2 : State :=
  { State.resetWith [0x010000000005, 0x121100000000] .wb .fault with
    pc := 4008, clock := 2, valid := (Vector.replicate 16 true).set 1 false
    lF := Latch.ofRecord 4004 ⟨1, 2, 1, 1, 0⟩, lD := Latch.ofRecord 4004 ⟨1, 2, 1, 1, 0⟩
    lE := Latch.ofRecord 4000 ⟨0, 1, 0, 0, 5⟩ }

theorem test_p1_stalls_in_tick_3 : (after p1AfterTick2).lD.stalled = true ∧ (after p1AfterTick2).lE.stalled = true := by
  decide

/-- P3 of 95_test_vectors.md under EX after tick 2: `MUL R3,R1,R2` is in `L.E`, `ADD R4,R1,R2` waits in `L.D`. -/
def p3AfterTick2 : State :=
  { State.resetWith [0x331200000000, 0x141200000000] .ex .fault with
    pc := 4008, clock := 2, valid := (Vector.replicate 16 true).set 3 false
    lF := Latch.ofRecord 4004 ⟨1, 4, 1, 2, 0⟩, lD := Latch.ofRecord 4004 ⟨1, 4, 1, 2, 0⟩
    lE := Latch.ofRecord 4000 ⟨3, 3, 1, 2, 0⟩ }

theorem test_p3_freezes_in_tick_3 :
    (after p3AfterTick2).lF.stalled = true ∧ (after p3AfterTick2).lM.busy = true ∧ (after p3AfterTick2).pc = 4008 := by
  decide

/-- The trace row of tick 4: the FSM is idle again and the ADD has issued. -/
def p3AfterTick3 : State := after p3AfterTick2

theorem test_p3_resumes_in_tick_4 :
    (after p3AfterTick3).lF.stalled = false ∧ (after p3AfterTick3).lE.op = 1 ∧ (after p3AfterTick3).lM.busy = false := by
  decide

/-! ### The invariant as a check -/

/-- The invariant, evaluated. -/
def invCheck (s : State) : Bool :=
  configOk s.params s.progLen && Memory.wf s.params.dmSize s.dm && decide (PcInRange s) &&
  decide ((s.lE.busy = true → s.lE.occ = true ∧ s.lE.op = 0x3#4 ∧ s.lE.stalled = false) ∧
    s.lF.stalled = s.lE.busy ∧ s.lF.busy = false ∧ s.lD.busy = false) &&
  decide ((s.lE.actsInExecute = true → s.lE.op.toNat < 13) ∧ (s.lM.acts = true → s.lM.op.toNat < 13) ∧
    (s.lW.acts = true → s.lW.op.toNat < 13)) &&
  decide (DecodeLatchFresh s) &&
  decide (s.retired.toNat ≤ s.progLen ∧ (s.status = .running → s.retired.toNat < s.progLen) ∧
    (s.status = .complete → s.retired.toNat = s.progLen) ∧ (s.status = .faulted ↔ s.faultCode ≠ .none) ∧
    s.faultCode ≠ .sbInvariant) &&
  decide (s.status ≠ .faulted → ScoreboardConserved s) && decide (s.status ≠ .faulted → FetchedOnce s) &&
  decide (s.stage = .fetch)

theorem inv_of_check {s : State} (h : invCheck s = true) : Inv s := by
  simp only [invCheck, Bool.and_eq_true, decide_eq_true_eq] at h
  obtain ⟨⟨⟨⟨⟨⟨⟨⟨⟨h1, h2⟩, h3⟩, h4⟩, h5⟩, h6⟩, h7⟩, h8⟩, h9⟩, h10⟩ := h
  exact ⟨h1, h2, h3, ⟨h4.1, h4.2.1, h4.2.2.1, h4.2.2.2⟩, ⟨h5.1, h5.2.1, h5.2.2⟩, h6,
    ⟨h7.1, h7.2.1, h7.2.2.1, h7.2.2.2.1, h7.2.2.2.2⟩, h8, h9, h10⟩

theorem p1_inv : Inv p1AfterTick2 := inv_of_check (by decide)
theorem p3_inv : Inv p3AfterTick2 := inv_of_check (by decide)
theorem p3_busy_inv : Inv p3AfterTick3 := inv_of_check (by decide)

/-- A program of one record, which waits in `L.D` with nothing else in flight; R1 holds 6, R2 holds 3998, cell 3999 holds 5. -/
def alone (w : RecordWord) (release : Release) (unimpl : Unimpl) : State :=
  { State.resetWith [w] release unimpl with
    pc := 4004, clock := 1, regs := ((Vector.replicate 16 0).set 1 6).set 2 3998, dm := [(3999, 5)]
    lF := Latch.ofRecord 4000 (Record.ofWord w), lD := Latch.ofRecord 4000 (Record.ofWord w) }

/-- What `AloneInDecode` asks for beside the instruction held, evaluated. -/
def aloneCheck (s : State) : Bool :=
  invCheck s && decide (Ticks s) && decide (fetchIndex s.params s.pc = s.progLen) && s.lD.occ && !s.lE.actsInExecute && !s.lM.acts
    && !s.lW.acts

theorem alone_of_check {i : Instr} {s : State} (h : aloneCheck s = true) (hi : s.lD.record.instr = .ok i) :
    AloneInDecode i s := by
  simp only [aloneCheck, Bool.and_eq_true, decide_eq_true_eq, Bool.not_eq_true'] at h
  obtain ⟨⟨⟨⟨⟨⟨h1, h2⟩, h3⟩, h4⟩, h5⟩, h6⟩, h7⟩ := h
  exact ⟨inv_of_check h1, h2, h3, h4, hi, h5, h6, h7⟩

/-! ### Witnesses: the hypotheses of each statement can be met -/

theorem witness_StepOnAnEmptyPipelineRunsTheFetchedInstruction :
    let s := State.resetWith [0x112300000000] .ex .fault
    Ticks s ∧ s.stage = .fetch ∧ s.lF = Latch.empty ∧ s.lD = Latch.empty ∧ s.lE = Latch.empty ∧ s.lM = Latch.empty ∧
      s.lW = Latch.empty ∧ s.fetchWord? = some 0x112300000000#48 ∧ decode 0x112300000000#48 = .ok (.add 1 2 3) :=
  ⟨by decide, rfl, rfl, rfl, rfl, rfl, rfl, by decide, rfl⟩

/-- Every latch and the program hold `ADD R1,R2,R3`. -/
def full : State :=
  let l := Latch.ofRecord 4000 ⟨1, 1, 2, 3, 0⟩
  { State.resetWith [0x112300000000] .ex .fault with lF := l, lD := l, lE := l, lM := l, lW := l }

theorem witness_EachStageStepRunsTheInstructionInItsLatch :
    full.lW.acts = true ∧ full.lM.acts = true ∧ full.lE.actsInExecute = true ∧ structuralHazard full = false ∧
      full.lD.occ = true ∧ full.lW.record.instr = .ok (.add 1 2 3) ∧ full.fetchWord? = some 0x112300000000#48 ∧
      decode 0x112300000000#48 = .ok (.add 1 2 3) ∧ Ticks full :=
  ⟨by decide, by decide, by decide, by decide, by decide, rfl, by decide, rfl, by decide⟩

theorem witness_DecodingKeepsTheUsedFieldsAndIgnoresTheRest :
    (Record.mk 0x0 1 7 3 5).instr = .ok (.movc 1 5) ∧ (Record.mk 0xC 1 7 3 5).instr = .ok .halt := ⟨rfl, rfl⟩

/-- Decode of a latch under `release`, with register 1 pending and every other one valid. -/
def issuing (release : Release) : State := { decoding .fault with cfgRelease := release }

theorem witness_LegalInstructionIssues :
    isControl (.store 0 15 1) = false ∧ (issuing .wb).stage = .decode ∧
      (∀ r, src1Of (.store 0 15 1) = some r ∨ src2Of (.store 0 15 1) = some r → (issuing .wb).validAt r = true) ∧
      (∀ r, dstOf (.add 2 3 4) = some r → (issuing .wb).validAt r = true) ∧
      (∀ r, src1Of (.add 1 3 4) = some r ∨ src2Of (.add 1 3 4) = some r → (issuing .ex).validAt r = true) := by decide

theorem witness_DataHazardOnlyMarksTheLatchStalled :
    (issuing .wb).stage = .decode ∧ (issuing .wb).validAt 1 = false ∧ (issuing .wb).cfgRelease = .wb ∧
      src1Of (.load 2 1 0) = some 1 ∧ src2Of (.store 2 1 0) = some 1 ∧ dstOf (.movc 1 5) = some 1 ∧
      isControl (.movc 1 5) = false := by decide

/-- Execute under `release`, with register 1 pending. -/
def executingUnder (release : Release) (busy : Bool) : State :=
  let s := multiplying 6 7
  { s with
    cfgRelease := release, valid := s.valid.set 1 false, lE := { s.lE with busy := busy }
    lF := { s.lF with stalled := busy } }

theorem witness_SingleTickAluInstructionsExecute :
    executeTicks (.sub 1 2 3) = 1 ∧ dstOf (.sub 1 2 3) = some 1 ∧
      aluResult (.sub 1 2 3) (executingUnder .ex false).lE.a (executingUnder .ex false).lE.b = some 0xFFFFFFFF#32 ∧
      (executingUnder .ex false).stage = .execute ∧ (executingUnder .ex false).validAt 1 = false ∧
      (executingUnder .wb false).cfgRelease = .wb := by decide

theorem witness_MultiplyTakesTwoExecuteTicks :
    (executingUnder .ex false).stage = .execute ∧ (executingUnder .ex false).lE.busy = false ∧
      (executingUnder .ex true).stage = .execute ∧ (executingUnder .ex true).lE.busy = true ∧
      (executingUnder .ex true).validAt 1 = false := by decide

theorem witness_LoadAndStoreComputeTheExactAddress :
    (executingUnder .ex false).stage = .execute ∧ (executingUnder .ex false).validAt 1 = false := by decide

theorem witness_LoadReadsItsCell :
    (accessing 0).stage = .memory ∧ 0 ≤ (accessing 0).lM.ea.toInt ∧ (accessing 3999).lM.ea.toInt < 4000 ∧
      0 ≤ (accessing 3999).lM.ea.toInt := by decide

theorem witness_StoreWritesItsCell :
    (accessing 3999).stage = .memory ∧ Memory.wf (accessing 3999).params.dmSize (accessing 3999).dm = true ∧ 0 ≤ (accessing 3999).lM.ea.toInt ∧
      (accessing 3999).lM.ea.toInt < 4000 := by decide

theorem witness_OutOfBoundsAccessRaisesBounds :
    (Instr.load 2 0 0).opcode = 0x7#4 ∧ (Instr.store 1 0 0).opcode = 0x8#4 ∧ (accessing 4000).stage = .memory ∧
      4000 ≤ (accessing 4000).lM.ea.toInt ∧ (accessing 0x1FFFFFFFF#33).lM.ea.toInt < 0 := by decide

theorem witness_OtherInstructionsPassTheMemoryStep :
    (Instr.xor 1 2 3).opcode ≠ 0x7#4 ∧ (Instr.bz).opcode ≠ 0x8#4 ∧ (accessing 4000).stage = .memory := by decide

theorem witness_LoadAfterStoreReadsTheStoredValue :
    (accessing 0).stage = .memory ∧ Memory.wf (accessing 0).params.dmSize (accessing 0).dm = true ∧ 0 ≤ (accessing 0).lM.ea.toInt ∧
      (accessing 0).lM.ea.toInt < 4000 ∧ ({ Latch.empty with ea := 0 } : Latch).ea = (accessing 0).lM.ea := by decide

/-- Writeback under `release`, with register 1 pending. -/
def committing (release : Release) : State :=
  { executingUnder release false with stage := .writeback, lW := { Latch.empty with occ := true, rd := 1, res := 42 } }

theorem witness_WritersCommitAndRetire :
    dstOf (.load 1 0 0) = some 1 ∧ (committing .wb).stage = .writeback ∧ (committing .wb).validAt 1 = false ∧
      (committing .ex).cfgRelease = .ex := by decide

theorem witness_NonWritersOnlyRetire : dstOf (.store 1 0 0) = none ∧ (committing .wb).stage = .writeback := by decide

theorem witness_ControlOpcodesRaiseUnimplUnderFault :
    isControl .halt = true ∧ (decoding .fault).stage = .decode ∧ (decoding .fault).cfgUnimpl = .fault := by decide

theorem witness_ControlOpcodesAreInertUnderNop :
    isControl .jump = true ∧ ∀ st, ((decoding .nop).atStage st).cfgUnimpl = .nop ∧ ((decoding .nop).atStage st).stage = st :=
  ⟨rfl, fun _ => ⟨rfl, rfl⟩⟩

theorem witness_DoubleReleaseRaisesSbInvariant :
    dstOf (.mul 2 1 1) = some 2 ∧ (executingUnder .ex true).validAt 2 = true ∧ (executingUnder .ex true).stage = .execute ∧
      (executingUnder .ex true).cfgRelease = .ex ∧ (executingUnder .ex true).lE.busy = true ∧
      executeTicks (.add 2 1 1) = 1 ∧ (committing .wb).validAt 2 = true ∧ (committing .wb).stage = .writeback ∧
      (committing .wb).cfgRelease = .wb := by decide

theorem witness_FrameOfEveryInstruction :
    Memory.wf (accessing 3999).params.dmSize (accessing 3999).dm = true ∧ (accessing 3999).status = .running ∧
      (∃ t, exec (.store 1 0 0) (accessing 3999) = .next t ∧ t.status ≠ .faulted) ∧
      ∃ t, exec (.store 1 0 0) (accessing 4000) = .next t ∧ t.status = .faulted :=
  ⟨by decide, by decide, ⟨_, rfl, by decide⟩, ⟨_, rfl, by decide⟩⟩

/-- `L.F` held by a busy multiply. -/
def heldF : State := { full with lF := { full.lF with stalled := true } }

/-- Decode frozen. -/
def frozenD : State := { full with lD := { full.lD with stalled := true } }

/-- A program of two records under other parameters, `pc` at the second one. -/
def elsewhere : State :=
  { State.resetWith [0x112300000000, 0x112300000000] .ex .fault ⟨16, 64, 0x100, 8⟩ with pc := 0x108 }

theorem witness_FetchLoadsHandsOnOrFreezes :
    (configOk full.params full.progLen = true ∧ full.pc = full.params.pcBase + full.params.pcStep * BitVec.ofNat 32 0) ∧
      (configOk elsewhere.params elsewhere.progLen = true ∧ 1 ≤ elsewhere.progLen ∧
        elsewhere.pc = elsewhere.params.pcBase + elsewhere.params.pcStep * BitVec.ofNat 32 1) ∧
      full.lF.busy = false ∧ full.lF.stalled = false ∧ full.lD.stalled = false ∧ frozenD.lF.busy = false ∧
      frozenD.lF.stalled = false ∧ frozenD.lD.stalled = true ∧ heldF.lF.stalled = true := by decide

theorem test_step_parameter : (after elsewhere).pc = 0x110 ∧ (after elsewhere).lD.pc = 0x108 := by decide
theorem test_size_parameter :
    accessOutcome (exec (.load 2 0 0) { accessing 64 with params := elsewhere.params }) =
      some (.faulted, .bounds, 64, 5, 0) := by decide

theorem witness_DecodeHandsOnExceptUnderTheStructuralHazard :
    p3AfterTick3.status = .running ∧ structuralHazard p3AfterTick3 = true ∧ full.status = .running ∧
      structuralHazard full = false ∧ (∃ t, stepDE full = .next t ∧ t.status = .running) ∧
      State.reset.lD.occ = false ∧ structuralHazard State.reset = false ∧
      (State.resetWith [0] .ex .fault).status = .running ∧
      (p1AfterTick2.status = .running ∧ structuralHazard p1AfterTick2 = false ∧ p1AfterTick2.lD.occ = true ∧
        p1AfterTick2.lD.record.instr = .ok (.add 2 1 1) ∧ dataHazard (some 1) (some 1) (some 2) p1AfterTick2 = true) :=
  ⟨by decide, by decide, by decide, by decide, ⟨_, rfl, by decide⟩, by decide, by decide, by decide,
    by decide, by decide, by decide, rfl, by decide⟩

theorem witness_ExecuteCopiesForwardInEveryTick :
    p3AfterTick2.status = .running ∧ mulStarts p3AfterTick2 = true ∧
      ∃ t, stepEX p3AfterTick2 = .next t ∧ t.status = .running :=
  ⟨by decide, by decide, ⟨_, rfl, by decide⟩⟩

/-- A latch with opcode `op` waits in `L.D`. -/
def waiting (op : OpBits) (unimpl : Unimpl) : State :=
  { State.resetWith [0] .ex unimpl with lD := { Latch.empty with occ := true, op := op } }

theorem witness_UnimplIsRaisedUnderFaultAndNeverUnderNop :
    structuralHazard (waiting 9 .fault) = false ∧ (waiting 9 .fault).lD.occ = true ∧ 9 ≤ (waiting 9 .fault).lD.op.toNat ∧
      (waiting 12 .fault).lD.op.toNat ≤ 12 ∧ (waiting 9 .fault).cfgUnimpl = .fault ∧
      (waiting 12 .nop).cfgUnimpl = .nop ∧ (waiting 12 .nop).faultCode ≠ .unimpl ∧ steps (waiting 12 .nop) = true := by
  decide

theorem witness_ReservedOpcodeRaisesMalformedAtDecode :
    (waiting 0xD .nop).lD.occ = true ∧ (waiting 0xD .nop).lD.op = 0xD#4 ∧ structuralHazard (waiting 0xF .nop) = false ∧
      (waiting 0xF .nop).lD.op = 0xF#4 ∧ structuralHazard { waiting 0xD .nop with lE := p3AfterTick3.lE } = true := by decide

/-- A run that has faulted, held in reset. -/
def resetting : State := { full with rst := true, status := .faulted, faultCode := .bounds }

theorem witness_ResetEdgeGivesTheResetState :
    configOk resetting.params resetting.progLen = true ∧ resetting.rst = true ∧ 0 < resetting.progLen ∧
      State.reset.progLen = 0 := by decide

/-- One record more than fits below 2^32. -/
def tooLong : State := State.resetWith (List.replicate 1073740824 0) .ex .fault

theorem witness_TooLongProgramIsRefused :
    (tooLong.params.nregs = 16 ∧ tooLong.params.pcStep ≠ 0 ∧
      2 ^ 32 ≤ tooLong.params.pcBase.toNat + tooLong.params.pcStep.toNat * tooLong.prog.length) ∧
      (State.resetWith [0] .ex .fault ⟨8, 4000, 4000, 4⟩).params.nregs ≠ 16 ∧
      (State.resetWith [0] .ex .fault ⟨16, 4000, 4000, 0⟩).params.pcStep = 0 := by
  simp only [tooLong, State.resetWith, List.length_replicate]
  decide

theorem witness_StoppedMachineChangesNothing :
    configOk State.reset.params State.reset.progLen = true ∧ State.reset.rst = false ∧ State.reset.status = .complete ∧
      { resetting with rst := false }.status = .faulted := by decide

theorem witness_EveryRunningTickAdvancesTheClock :
    Ticks p3AfterTick2 ∧ steps p3AfterTick2 = true ∧ Ticks (waiting 0xD .nop) ∧ steps (waiting 0xD .nop) = true := by decide

/-- `L.W` holds `MOVC R1,#5` with its result, and register 1 is pending; so does `L.M` hold `STORE R1,R0,#3999`. -/
def writingBack : State :=
  { State.resetWith [0x010000000005, 0x801000000F9F, 0] .wb .fault with
    pc := 4008, clock := 4, valid := (Vector.replicate 16 true).set 1 false
    lM := { Latch.ofRecord 4004 ⟨8, 0, 1, 0, 3999⟩ with a := 7, ea := 3999 }
    lW := { Latch.ofRecord 4000 ⟨0, 1, 0, 0, 5⟩ with res := 5 } }

/-- P3 after tick 5: the finished multiply is in `L.W`. -/
def p3AfterTick5 : State := after (after p3AfterTick3)

theorem witness_RetiredCountsWritebackActions :
    (Ticks writingBack ∧ wbRaises writingBack = false ∧ steps writingBack = true ∧ writingBack.lW.acts = true) ∧
      Ticks p3AfterTick5 ∧ Inv p3AfterTick5 ∧ steps p3AfterTick5 = true ∧ p3AfterTick5.lW.acts = true :=
  ⟨by decide, by decide, inv_of_check (by decide), by decide, by decide⟩

theorem witness_NoStepChangesAnInput : step writingBack = .next (after writingBack) := step_after (by decide)

theorem witness_NoStepChangesTheParametersOrRst : step elsewhere = .next (after elsewhere) := step_after (by decide)

theorem witness_RegistersChangeOnlyByWriteback :
    Ticks writingBack ∧ step writingBack = .next (after writingBack) ∧ (after writingBack).reg 1 ≠ writingBack.reg 1 :=
  ⟨by decide, step_after (by decide), by decide⟩

theorem witness_CellsChangeOnlyByStore :
    Ticks writingBack ∧ Memory.wf writingBack.params.dmSize writingBack.dm = true ∧ step writingBack = .next (after writingBack) ∧
      Memory.read (after writingBack).dm 3999 ≠ Memory.read writingBack.dm 3999 :=
  ⟨by decide, by decide, step_after (by decide), by decide⟩

theorem witness_PcHoldsOrAdvancesByFour :
    Ticks writingBack ∧ step writingBack = .next (after writingBack) ∧ (after writingBack).pc = writingBack.pc + 4 ∧
      (after p3AfterTick2).pc = p3AfterTick2.pc :=
  ⟨by decide, step_after (by decide), by decide, by decide⟩

theorem legal_of_check {s : State}
    (h : (s.lE.actsInExecute = true → s.lE.op.toNat < 13) ∧ (s.lM.acts = true → s.lM.op.toNat < 13) ∧
      (s.lW.acts = true → s.lW.op.toNat < 13)) : LegalPastDecode s := ⟨h.1, h.2.1, h.2.2⟩

/-- Two raises in one tick: BOUNDS at Memory before MALFORMED at Decode. -/
def twoRaises : State :=
  { waiting 0xD .nop with lM := { Latch.ofRecord 4000 ⟨7, 1, 0, 0, 0⟩ with ea := 4000 } }

theorem witness_FirstRaiseInStepOrderIsTaken :
    Ticks twoRaises ∧ LegalPastDecode twoRaises ∧ firstRaise twoRaises = some ⟨.bounds, 4000, 4000⟩ ∧
      malformedRaises twoRaises = true ∧ Ticks full ∧ LegalPastDecode writingBack ∧ firstRaise writingBack = none :=
  ⟨by decide, legal_of_check (by decide), by decide, by decide, by decide, legal_of_check (by decide), by decide⟩

theorem witness_FaultEntryDiscardsTheFaultingStepAndTheLaterOnes :
    let wb := { full with cfgRelease := .wb }
    (Ticks wb ∧ wb.stage = .fetch ∧ LegalPastDecode wb ∧ (firstRaise wb).isSome = true ∧ wbRaises wb = true) ∧
    (twoRaises.stage = .fetch ∧ (firstRaise twoRaises).isSome = true ∧ wbRaises twoRaises = false ∧
      memRaises twoRaises = true) ∧
    (Ticks full ∧ full.stage = .fetch ∧ LegalPastDecode full ∧ (firstRaise full).isSome = true ∧ wbRaises full = false ∧
      memRaises full = false ∧ exRaises full = true) ∧
    (Ticks (waiting 9 .fault) ∧ (waiting 9 .fault).stage = .fetch ∧ LegalPastDecode (waiting 9 .fault) ∧
      (firstRaise (waiting 9 .fault)).isSome = true ∧ wbRaises (waiting 9 .fault) = false ∧
      memRaises (waiting 9 .fault) = false ∧ exRaises (waiting 9 .fault) = false) :=
  ⟨⟨by decide, by decide, legal_of_check (by decide), by decide, by decide⟩, by decide,
    ⟨by decide, by decide, legal_of_check (by decide), by decide, by decide, by decide, by decide⟩,
    ⟨by decide, by decide, legal_of_check (by decide), by decide, by decide, by decide, by decide⟩⟩

theorem witness_TickIsTheAdvanceMux :
    Ticks p3AfterTick3 ∧ FsmInv p3AfterTick3 ∧ LegalPastDecode p3AfterTick3 ∧ firstRaise p3AfterTick3 = none :=
  ⟨by decide, p3_busy_inv.fsm, p3_busy_inv.legal, by decide⟩

theorem witness_MultiplyFreezesFetchAndDecodeForOneTick :
    (Ticks p3AfterTick2 ∧ FsmInv p3AfterTick2 ∧ LegalPastDecode p3AfterTick2 ∧
      step p3AfterTick2 = .next (after p3AfterTick2) ∧ (after p3AfterTick2).status ≠ .faulted ∧
      mulStarts p3AfterTick2 = true) ∧
    (Ticks p3AfterTick3 ∧ FsmInv p3AfterTick3 ∧ LegalPastDecode p3AfterTick3 ∧
      step p3AfterTick3 = .next (after p3AfterTick3) ∧ (after p3AfterTick3).status ≠ .faulted ∧
      p3AfterTick3.lE.busy = true) ∧
    (Ticks p1AfterTick2 ∧ FsmInv p1AfterTick2 ∧ LegalPastDecode p1AfterTick2 ∧
      step p1AfterTick2 = .next (after p1AfterTick2) ∧ (after p1AfterTick2).status ≠ .faulted ∧
      dataStall p1AfterTick2 = true) :=
  ⟨⟨by decide, p3_inv.fsm, p3_inv.legal, step_after (by decide), by decide, by decide⟩,
    ⟨by decide, p3_busy_inv.fsm, p3_busy_inv.legal, step_after (by decide), by decide, by decide⟩,
    ⟨by decide, p1_inv.fsm, p1_inv.legal, step_after (by decide), by decide, by decide⟩⟩

theorem witness_NoDataStallUnderEarlyRelease :
    Inv p3AfterTick2 ∧ Ticks p3AfterTick2 ∧ p3AfterTick2.cfgRelease = .ex ∧
      step p3AfterTick2 = .next (after p3AfterTick2) ∧ (after p3AfterTick2).status ≠ .faulted :=
  ⟨p3_inv, by decide, by decide, step_after (by decide), by decide⟩

theorem witness_DataStallsLastAtMostTwoTicks :
    let t := after p1AfterTick2
    Inv p1AfterTick2 ∧ Ticks p1AfterTick2 ∧ step p1AfterTick2 = .next t ∧ t.status = .running ∧ step t = .next (after t) ∧
      (after t).status = .running ∧ dataStall p1AfterTick2 = true ∧ dataStall t = true :=
  ⟨p1_inv, by decide, step_after (by decide), by decide, step_after (by decide), by decide, by decide, by decide⟩

theorem witness_IssueReadsTheRegisterFileAfterWriteback :
    Ticks p3AfterTick3 ∧ FsmInv p3AfterTick3 ∧ LegalPastDecode p3AfterTick3 ∧
      step p3AfterTick3 = .next (after p3AfterTick3) ∧ (after p3AfterTick3).status ≠ .faulted ∧
      issues p3AfterTick3 = true ∧ p3AfterTick3.lD.record.instr = .ok (.add 4 1 2) :=
  ⟨by decide, p3_busy_inv.fsm, p3_busy_inv.legal, step_after (by decide), by decide, by decide, rfl⟩

theorem witness_InvariantHoldsAtReset :
    configOk Config.params [0x331200000000#48].length = true ∧ configOk elsewhere.params elsewhere.progLen = true := by decide

theorem witness_EveryStepKeepsTheInvariant : Inv p3AfterTick2 ∧ step p3AfterTick2 = .next (after p3AfterTick2) :=
  ⟨p3_inv, step_after (by decide)⟩

theorem witness_InvariantStateAlwaysSteps : Inv p1AfterTick2 := p1_inv

/-- A completed run of `MOVC R1,#5`. -/
def completed : State :=
  { State.resetWith [0x010000000005] .ex .fault with
    pc := 4004, clock := 5, retired := 1, status := .complete, regs := (Vector.replicate 16 0).set 1 5 }

theorem witness_CompletionLeavesNothingPending : Inv completed ∧ completed.status = .complete :=
  ⟨inv_of_check (by decide), rfl⟩

theorem witness_LoneAluInstructionRetires :
    (AloneInDecode (.add 3 1 2) (alone 0x131200000000 .ex .fault) ∧ dstOf (.add 3 1 2) = some 3 ∧
      aluResult (.add 3 1 2) 6 3998 = some 4004) ∧
    (AloneInDecode (.mul 1 1 1) (alone 0x311100000000 .wb .fault) ∧ dstOf (.mul 1 1 1) = some 1 ∧
      aluResult (.mul 1 1 1) 6 6 = some 36) :=
  ⟨⟨alone_of_check (by decide) rfl, rfl, by decide⟩, ⟨alone_of_check (by decide) rfl, rfl, by decide⟩⟩

theorem witness_LoneLoadRetiresOrFaults :
    AloneInDecode (.load 3 2 1) (alone 0x732000000001 .wb .fault) ∧
      ((alone 0x732000000001 .wb .fault).reg 2).toInt + (1 : Word).toInt = 3999 ∧
      AloneInDecode (.load 3 2 2) (alone 0x732000000002 .ex .fault) ∧
      ((alone 0x732000000002 .ex .fault).reg 2).toInt + (2 : Word).toInt = 4000 ∧
      AloneInDecode (.load 3 1 0xFFFFFFF9#32) (alone 0x7310FFFFFFF9 .ex .fault) ∧
      ((alone 0x7310FFFFFFF9 .ex .fault).reg 1).toInt + (0xFFFFFFF9#32).toInt = -1 :=
  ⟨alone_of_check (by decide) rfl, by decide, alone_of_check (by decide) rfl, by decide, alone_of_check (by decide) rfl,
    by decide⟩

theorem witness_LoneStoreRetiresOrFaults :
    AloneInDecode (.store 1 1 0xFFFFFFFA#32) (alone 0x8011FFFFFFFA .ex .fault) ∧
      ((alone 0x8011FFFFFFFA .ex .fault).reg 1).toInt + (0xFFFFFFFA#32).toInt = 0 ∧
      AloneInDecode (.store 1 2 2) (alone 0x801200000002 .wb .fault) ∧
      ((alone 0x801200000002 .wb .fault).reg 2).toInt + (2 : Word).toInt = 4000 :=
  ⟨alone_of_check (by decide) rfl, by decide, alone_of_check (by decide) rfl, by decide⟩

theorem witness_LoneControlOpcodeRetiresOrFaults :
    AloneInDecode .halt (alone 0xC00000000000 .ex .nop) ∧ AloneInDecode .bz (alone 0x900000000008 .wb .fault) ∧
      isControl .halt = true ∧ isControl .bz = true :=
  ⟨alone_of_check (by decide) rfl, alone_of_check (by decide) rfl, rfl, rfl⟩

theorem witness_WbTickRefinesSequentialExecution :
    (Inv p1AfterTick2 ∧ Ticks p1AfterTick2 ∧ p1AfterTick2.cfgRelease = .wb ∧ step p1AfterTick2 = .next (after p1AfterTick2) ∧
      (after p1AfterTick2).status ≠ .faulted ∧ issues p1AfterTick2 = false) ∧
    (let s := alone 0x131200000000 .wb .fault;
      Inv s ∧ Ticks s ∧ step s = .next (after s) ∧ (after s).status ≠ .faulted ∧ issues s = true ∧
        s.lD.record.instr = .ok (.add 3 1 2)) :=
  ⟨⟨p1_inv, by decide, rfl, step_after (by decide), by decide, by decide⟩,
    ⟨inv_of_check (by decide), by decide, step_after (by decide), by decide, by decide, rfl⟩⟩

/-- The five ticks of `MOVC R1,#5` alone. -/
def movcRun (release : Release) : State :=
  after (after (after (after (after (State.resetWith [0x010000000005] release .fault)))))

theorem run_five {s : State}
    (h : (steps s && steps (after s) && steps (after (after s)) && steps (after (after (after s)))
      && steps (after (after (after (after s))))) = true) :
    Host.Core.run Sys2Proof.core 5 s = .next (after (after (after (after (after s))))) := by
  simp only [Bool.and_eq_true] at h
  obtain ⟨⟨⟨⟨h1, h2⟩, h3⟩, h4⟩, h5⟩ := h
  simp only [Host.Core.run, Sys2Proof.core, step_after h1, step_after h2, step_after h3, step_after h4, step_after h5]

theorem witness_CompleteRunUnderWbIsSequential :
    configOk Config.params [0x010000000005#48].length = true ∧
      Host.Core.run Sys2Proof.core 5 (State.resetWith [0x010000000005] .wb .fault) = .next (movcRun .wb) ∧
      (movcRun .wb).status = .complete ∧ (movcRun .wb).reg 1 = 5 :=
  ⟨by decide, run_five (by decide), by decide, by decide⟩

theorem witness_TicksLeftCountsDown :
    Inv p3AfterTick2 ∧ Ticks p3AfterTick2 ∧ p3AfterTick2.cfgRelease = .ex ∧ step p3AfterTick2 = .next (after p3AfterTick2) ∧
      (after p3AfterTick2).status ≠ .faulted ∧ ticksLeft p3AfterTick2 = 5 :=
  ⟨p3_inv, by decide, rfl, step_after (by decide), by decide, by decide⟩

theorem witness_FaultFreeRunUnderExTakesNPlusFourPlusM :
    configOk Config.params [0x010000000005#48].length = true ∧ [0x010000000005#48] ≠ [] ∧
      [0x010000000005#48].length + 4 + mulCount [0x010000000005#48] = 5 ∧
      Host.Core.run Sys2Proof.core 5 (State.resetWith [0x010000000005] .ex .fault) = .next (movcRun .ex) ∧
      (movcRun .ex).status ≠ .faulted :=
  ⟨by decide, by decide, by decide, run_five (by decide), by decide⟩

theorem witness_EveryRunEnds : Inv p3AfterTick2 ∧ p3AfterTick2.rst = false := ⟨p3_inv, rfl⟩

theorem witness_WorkLeftFallsInEveryTick :
    (Inv p3AfterTick2 ∧ Ticks p3AfterTick2 ∧ step p3AfterTick2 = .next (after p3AfterTick2) ∧
      (after p3AfterTick2).status ≠ .faulted ∧ workLeft p3AfterTick2 = 9 ∧ workLeft (after p3AfterTick2) = 8) ∧
    (Inv p1AfterTick2 ∧ Ticks p1AfterTick2 ∧ step p1AfterTick2 = .next (after p1AfterTick2) ∧
      (after p1AfterTick2).status ≠ .faulted ∧ dataStall p1AfterTick2 = true) :=
  ⟨⟨p3_inv, by decide, step_after (by decide), by decide, by decide, by decide⟩,
    ⟨p1_inv, by decide, step_after (by decide), by decide, by decide⟩⟩

theorem witness_OutputPortsShowTheState : (3999#12).toNat < 4000 := by decide

end Sys2Proof.Tests
end

/-! The inputs of 10_state.md R31 under the clock edge, and the reset state of R43. -/

namespace Sys2Proof.Machine

/-! ### The inputs under the state's updates -/

/-- The fields of State that come from outside the CORE (10_state.md R31; log entries 6 and 10). -/
structure Inputs where
  prog : List RecordWord
  cfgRelease : Release
  cfgUnimpl : Unimpl
  params : Params
  rst : Bool

/-- The inputs a state holds. -/
def State.inputs (s : State) : Inputs := ⟨s.prog, s.cfgRelease, s.cfgUnimpl, s.params, s.rst⟩

theorem inputs_eq_iff {s t : State} :
    t.inputs = s.inputs ↔ t.prog = s.prog ∧ t.cfgRelease = s.cfgRelease ∧ t.cfgUnimpl = s.cfgUnimpl ∧
      t.params = s.params ∧ t.rst = s.rst := by
  simp [State.inputs]

section
variable (s : State)

@[simp] theorem setReg_inputs (r : Reg) (v : Word) : (s.setReg r v).inputs = s.inputs := rfl
@[simp] theorem setValid_inputs (r : Reg) (b : Bool) : (s.setValid r b).inputs = s.inputs := rfl
@[simp] theorem setF_inputs (l : Latch) : (s.setF l).inputs = s.inputs := rfl
@[simp] theorem setD_inputs (l : Latch) : (s.setD l).inputs = s.inputs := rfl
@[simp] theorem setE_inputs (l : Latch) : (s.setE l).inputs = s.inputs := rfl
@[simp] theorem setM_inputs (l : Latch) : (s.setM l).inputs = s.inputs := rfl
@[simp] theorem setW_inputs (l : Latch) : (s.setW l).inputs = s.inputs := rfl
@[simp] theorem setPc_inputs (v : Addr) : (s.setPc v).inputs = s.inputs := rfl
@[simp] theorem retire_inputs : s.retire.inputs = s.inputs := rfl
@[simp] theorem countTick_inputs : s.countTick.inputs = s.inputs := rfl
@[simp] theorem setStatus_inputs (v : Status) : (s.setStatus v).inputs = s.inputs := rfl
@[simp] theorem atStage_inputs (st : Stage) : (s.atStage st).inputs = s.inputs := rfl
@[simp] theorem takeFault_inputs (f : Raised) : (takeFault s f).inputs = s.inputs := rfl
@[simp] theorem resetEdge_inputs : (resetEdge s).inputs = s.inputs := rfl
@[simp] theorem mulStart_inputs : (mulStart s).inputs = s.inputs := rfl
@[simp] theorem mulFinish_inputs : (mulFinish s).inputs = s.inputs := rfl
@[simp] theorem readIntoLatch_inputs : (readIntoLatch s).inputs = s.inputs := rfl
@[simp] theorem storeFromLatch_inputs : (storeFromLatch s).inputs = s.inputs := rfl

@[simp] theorem acquire_inputs (dst : Option Reg) : (acquire dst s).inputs = s.inputs := by
  cases dst <;> rfl

@[simp] theorem fetchAct_inputs : (fetchAct s).inputs = s.inputs := by
  obtain ⟨-, h⟩ | ⟨-, -, h⟩ | ⟨-, -, h⟩ := fetchAct_cases s <;> simp [h]

@[simp] theorem endTick_inputs : (endTick s).inputs = s.inputs := by
  unfold endTick
  split <;> simp

end

/-! ### The inputs under the stage actions -/

/-- A stage action that does not raise leaves the inputs as they were. -/
def KeepsInputs (act : State → Except Raised State) : Prop :=
  ∀ ⦃s t : State⦄, act s = .ok t → t.inputs = s.inputs

theorem issue_keepsInputs (src1 src2 dst : Option Reg) : KeepsInputs (issue src1 src2 dst) := by
  intro s t h
  obtain ⟨-, rfl⟩ | ⟨-, rfl⟩ := issue_ok.1 h <;> simp

theorem controlDecode_keepsInputs (op : OpBits) : KeepsInputs (controlDecode op) := by
  intro s t h
  cases hu : s.cfgUnimpl with
  | fault => simp [controlDecode_fault hu] at h
  | nop =>
    obtain rfl : s.setD { s.lD with stalled := false } = t := by simpa [controlDecode_nop hu] using h
    simp

theorem executeWriter_keepsInputs (rd : Reg) (act : Latch → Latch) : KeepsInputs (executeWriter rd act) := by
  intro s t h
  obtain ⟨-, -, rfl⟩ | ⟨-, rfl⟩ := executeWriter_ok.1 h <;> simp

theorem executeNonWriter_keepsInputs (act : Latch → Latch) : KeepsInputs (executeNonWriter act) := by
  rintro s _ ⟨⟩
  simp

theorem passOn_keepsInputs : KeepsInputs passOn := by
  rintro s _ ⟨⟩
  rfl

theorem executeTwoTicks_keepsInputs (rd : Reg) (act : Latch → Latch) : KeepsInputs (executeTwoTicks rd act) := by
  intro s t h
  cases hb : s.lE.busy with
  | false =>
    obtain rfl : mulStart s = t := by simpa [executeTwoTicks_start hb] using h
    simp
  | true =>
    rw [executeTwoTicks_finish hb] at h
    simpa using executeWriter_keepsInputs rd act h

theorem checkBounds_keepsInputs {access : State → State} (ha : ∀ s, (access s).inputs = s.inputs) :
    KeepsInputs (checkBounds access) := by
  intro s t h
  obtain ⟨-, rfl⟩ := checkBounds_ok.1 h
  exact ha s

theorem commit_keepsInputs (rd : Reg) : KeepsInputs (commit rd) := by
  intro s t h
  obtain ⟨-, -, rfl⟩ | ⟨-, rfl⟩ := commit_ok.1 h <;> simp

theorem retireOnly_keepsInputs : KeepsInputs retireOnly := by
  rintro s _ ⟨⟩
  simp

/-- Fault entry keeps the inputs too, so a settled action does whether or not it raises. -/
theorem settle_inputs {act : State → Except Raised State} {s t : State} (hact : KeepsInputs act)
    (h : settle s (act s) = .next t) : t.inputs = s.inputs := by
  obtain hok | ⟨f, -, rfl⟩ := settle_next.1 h
  · exact hact hok
  · simp

theorem perStage_inputs {de ex me wb : State → Except Raised State} {s t : State} (hde : KeepsInputs de)
    (hex : KeepsInputs ex) (hme : KeepsInputs me) (hwb : KeepsInputs wb) (h : perStage de ex me wb s = .next t) :
    t.inputs = s.inputs := by
  cases hst : s.stage with
  | fetch =>
    obtain rfl : fetchAct s = t := by simpa [perStage_fetch hst] using h
    simp
  | decode => exact settle_inputs hde (perStage_decode hst ▸ h)
  | execute => exact settle_inputs hex (perStage_execute hst ▸ h)
  | memory => exact settle_inputs hme (perStage_memory hst ▸ h)
  | writeback => exact settle_inputs hwb (perStage_writeback hst ▸ h)

/-- A meaning that issues and commits as a writer does: the ALU instructions, MUL and LOAD. -/
theorem perStage_writer_inputs {src1 src2 : Option Reg} {rd : Reg} {ex me : State → Except Raised State} {s t : State}
    (hex : KeepsInputs ex) (hme : KeepsInputs me)
    (h : perStage (issue src1 src2 (some rd)) ex me (commit rd) s = .next t) : t.inputs = s.inputs :=
  perStage_inputs (issue_keepsInputs ..) hex hme (commit_keepsInputs rd) h

/-- The meaning the four control opcodes share (43_control.md R190). -/
theorem perStage_control_inputs {op : OpBits} {s t : State}
    (h : perStage (controlDecode op) passOn passOn retireOnly s = .next t) : t.inputs = s.inputs :=
  perStage_inputs (controlDecode_keepsInputs op) passOn_keepsInputs passOn_keepsInputs retireOnly_keepsInputs h

theorem exec_inputs {i : Instr} {s t : State} (h : exec i s = .next t) : t.inputs = s.inputs := by
  cases i with
  | movc | add | sub | and | or | xor =>
    exact perStage_writer_inputs (executeWriter_keepsInputs ..) passOn_keepsInputs h
  | mul => exact perStage_writer_inputs (executeTwoTicks_keepsInputs ..) passOn_keepsInputs h
  | load =>
    exact perStage_writer_inputs (executeWriter_keepsInputs ..) (checkBounds_keepsInputs readIntoLatch_inputs) h
  | store =>
    exact perStage_inputs (issue_keepsInputs ..) (executeNonWriter_keepsInputs _)
      (checkBounds_keepsInputs storeFromLatch_inputs) retireOnly_keepsInputs h
  | bz | bnz | jump | halt => exact perStage_control_inputs h

/-! ### The inputs under the stage steps, the tick and the clock edge -/

/-- The two parts of a tick keep the inputs, whether or not the first one ends it. -/
theorem thenRunning_inputs {o : Result} {rest : State → Result} {s t : State}
    (ho : ∀ u, o = .next u → u.inputs = s.inputs) (hrest : ∀ u, rest u = .next t → t.inputs = u.inputs)
    (h : thenRunning o rest = .next t) : t.inputs = s.inputs := by
  obtain ⟨u, hu, ⟨-, ht⟩ | ⟨-, rfl⟩⟩ := thenRunning_next.1 h
  · exact (hrest u ht).trans (ho u hu)
  · exact ho t hu

theorem runLatch_inputs {l : Latch} {st : Stage} {s t : State} (h : runLatch l st s = .next t) :
    t.inputs = s.inputs := by
  unfold runLatch at h
  split at h
  · simpa using exec_inputs h
  · cases h

/-- A stage past Decode acts on its latch or does nothing. -/
theorem ite_runLatch_inputs {acts : Bool} {l : Latch} {st : Stage} {s t : State}
    (h : (if acts then runLatch l st s else .next s) = .next t) : t.inputs = s.inputs := by
  cases acts with
  | true => exact runLatch_inputs h
  | false => cases h; rfl

theorem stepWB_inputs {s t : State} (h : stepWB s = .next t) : t.inputs = s.inputs := ite_runLatch_inputs h

theorem stepMEM_inputs {s t : State} (h : stepMEM s = .next t) : t.inputs = s.inputs :=
  thenRunning_inputs (fun _ => ite_runLatch_inputs) (by rintro u ⟨⟩; simp) h

theorem stepEX_inputs {s t : State} (h : stepEX s = .next t) : t.inputs = s.inputs :=
  thenRunning_inputs (fun _ => ite_runLatch_inputs) (by rintro u ⟨⟩; simp) h

theorem stepDE_inputs {s t : State} (h : stepDE s = .next t) : t.inputs = s.inputs := by
  unfold stepDE at h
  split at h
  · cases h
    simp
  · split at h
    · split at h
      · exact thenRunning_inputs (fun u hu => by simpa using exec_inputs hu) (by rintro u ⟨⟩; simp) h
      · cases h
        simp
    · cases h
      simp

theorem stepF_inputs {s t : State} (h : stepF s = .next t) : t.inputs = s.inputs := by
  rw [stepF_eq] at h
  cases h
  simp

theorem tick_inputs {s t : State} (h : tick s = .next t) : t.inputs = s.inputs :=
  thenRunning_inputs (fun _ => stepWB_inputs) (fun _ =>
    thenRunning_inputs (fun _ => stepMEM_inputs) fun _ =>
    thenRunning_inputs (fun _ => stepEX_inputs) fun _ =>
    thenRunning_inputs (fun _ => stepDE_inputs) fun _ =>
    thenRunning_inputs (fun _ => stepF_inputs) (by rintro u ⟨⟩; simp)) h

/-- No clock edge writes an input: not the reset edge, not a tick, and not an edge in Complete or Faulted. -/
theorem step_inputs {s t : State} (h : step s = .next t) : t.inputs = s.inputs := by
  obtain ⟨-, ⟨-, rfl⟩ | ⟨-, htick⟩ | ⟨-, -, rfl⟩⟩ := step_next_cases h
  · simp
  · exact tick_inputs htick
  · rfl

/-- Settles O29: `step_inputs` read field by field. -/
theorem noStepChangesAnInput : Obligations.NoStepChangesAnInput := by
  intro s t h
  obtain ⟨hprog, hrelease, hunimpl, -, -⟩ := inputs_eq_iff.1 (step_inputs h)
  exact ⟨hprog, congrArg List.length hprog, hrelease, hunimpl⟩

/-! ### The reset edge -/

@[simp] theorem resetEdge_reg (s : State) (r : Reg) : (resetEdge s).reg r = 0 := by
  simp [State.reg, resetEdge, State.resetWith]

@[simp] theorem resetEdge_validAt (s : State) (r : Reg) : (resetEdge s).validAt r = true := by
  simp [State.validAt, resetEdge, State.resetWith]

@[simp] theorem resetEdge_pc (s : State) : (resetEdge s).pc = s.params.pcBase := rfl

@[simp] theorem resetEdge_status (s : State) :
    (resetEdge s).status = if s.progLen = 0 then .complete else .running := rfl

theorem resetEdge_latches (s : State) :
    [(resetEdge s).lF, (resetEdge s).lD, (resetEdge s).lE, (resetEdge s).lM, (resetEdge s).lW] =
      List.replicate 5 Latch.empty := rfl

/-- Settles O24: the clock edge is `resetEdge`, whose fields R43 lists. -/
theorem resetEdgeGivesTheResetState : Obligations.ResetEdgeGivesTheResetState := by
  intro s hc hrst
  obtain ⟨hprog, hrelease, hunimpl, -, -⟩ := inputs_eq_iff.1 (resetEdge_inputs s)
  refine ⟨resetEdge s, step_of_reset hc hrst, fun r => ⟨resetEdge_reg s r, resetEdge_validAt s r⟩, fun c => rfl,
    resetEdge_pc s, ?params, rfl, rfl, ?running, ?complete, rfl, rfl, rfl, ?latches, hprog, hrelease, hunimpl⟩
  case params =>
    intro hp
    rw [resetEdge_pc, hp]
    rfl
  case running =>
    intro hn
    simp [Nat.ne_of_gt hn]
  case complete =>
    intro hn
    simp [hn]
  case latches =>
    intro l hl
    rw [resetEdge_latches] at hl
    exact List.eq_of_mem_replicate hl

end Sys2Proof.Machine

/-! The 48-bit record format of 30_encoding.md R81: its fields as digits of the word, and the word as its five fields. -/

namespace Sys2Proof

/-! ### The fields of a word -/

/-- R10: `w[start+len-1:start]` as an unsigned value. -/
theorem toNat_extractLsb'_eq_div_mod (w : RecordWord) (start len : Nat) :
    (w.extractLsb' start len).toNat = w.toNat / 2 ^ start % 2 ^ len := by
  rw [BitVec.extractLsb'_toNat, Nat.shiftRight_eq_div_pow]

/-- `op` is the topmost field, so nothing above it has to be cut off. -/
theorem Record.ofWord_op_toNat (w : RecordWord) : (Record.ofWord w).op.toNat = w.toNat / 2 ^ 44 := by
  have hop : w.toNat / 2 ^ 44 < 2 ^ 4 := Nat.div_lt_of_lt_mul w.isLt
  exact (toNat_extractLsb'_eq_div_mod w 44 4).trans (Nat.mod_eq_of_lt hop)

theorem Record.ofWord_rd_val (w : RecordWord) : (Record.ofWord w).rd.val = w.toNat / 2 ^ 40 % 16 :=
  toNat_extractLsb'_eq_div_mod w 40 4

theorem Record.ofWord_rs1_val (w : RecordWord) : (Record.ofWord w).rs1.val = w.toNat / 2 ^ 36 % 16 :=
  toNat_extractLsb'_eq_div_mod w 36 4

theorem Record.ofWord_rs2_val (w : RecordWord) : (Record.ofWord w).rs2.val = w.toNat / 2 ^ 32 % 16 :=
  toNat_extractLsb'_eq_div_mod w 32 4

/-- `imm` is the lowest field, so there is nothing below it to shift out. -/
theorem Record.ofWord_imm_toNat (w : RecordWord) : (Record.ofWord w).imm.toNat = w.toNat % 2 ^ 32 :=
  (toNat_extractLsb'_eq_div_mod w 0 32).trans (by rw [pow_zero, Nat.div_one])

/-! ### The word of its fields -/

/-- The other direction of `append_fields`: the five fields of R81 are adjacent and cover the word, so putting them
together, each next to the one below it, gives the word back. -/
theorem append_extracted_fields (w : RecordWord) :
    w.extractLsb' 44 4 ++ w.extractLsb' 40 4 ++ w.extractLsb' 36 4 ++ w.extractLsb' 32 4 ++ w.extractLsb' 0 32 = w :=
  calc
    _ = w.extractLsb' 40 8 ++ w.extractLsb' 36 4 ++ w.extractLsb' 32 4 ++ w.extractLsb' 0 32 := by
      rw [BitVec.extractLsb'_append_extractLsb'_eq_extractLsb' (start₂ := 44) rfl]
    _ = w.extractLsb' 36 12 ++ w.extractLsb' 32 4 ++ w.extractLsb' 0 32 := by
      rw [BitVec.extractLsb'_append_extractLsb'_eq_extractLsb' (start₂ := 40) rfl]
    _ = w.extractLsb' 32 16 ++ w.extractLsb' 0 32 := by
      rw [BitVec.extractLsb'_append_extractLsb'_eq_extractLsb' (start₂ := 36) rfl]
    _ = w.extractLsb' 0 48 := BitVec.extractLsb'_append_extractLsb'_eq_extractLsb' rfl
    _ = w := BitVec.extractLsb'_eq_self

/-- The other direction of `Record.ofWord_toWord`: no bit of a word is lost in its record (R81). -/
theorem Record.toWord_ofWord (w : RecordWord) : (Record.ofWord w).toWord = w := append_extracted_fields w

/-- Settles O3: each field is a digit of the word, and the fields together are the word. -/
theorem recordFormatAndWordRoundTrip : Obligations.RecordFormatAndWordRoundTrip := fun w =>
  ⟨Record.ofWord_op_toNat w, Record.ofWord_rd_val w, Record.ofWord_rs1_val w, Record.ofWord_rs2_val w,
    Record.ofWord_imm_toNat w, Record.toWord_ofWord w⟩

end Sys2Proof

/-! What each stage step may change (40_pipeline.md R105), and the statements about the pipeline: the stopped machine (R106),
the counters `clock` and `retired` (R107, R115), the multiply FSM (R121, R122), and what Fetch, Decode and Execute hand on
(R125, R132, R136 to R140). -/

namespace Sys2Proof.Machine

/-! ### A stopped machine -/

/-- Settles O26: `step_of_config` has one branch for each status, and two of them answer the state itself. -/
theorem stoppedMachineChangesNothing : Obligations.StoppedMachineChangesNothing := by
  intro s hc hrst hstopped
  obtain h | h := hstopped <;> simp [step_of_config hc, hrst, h]

/-! ### What a stage step may change -/

/-- `s` with the fields that stage step `st` may write taken from `t`. -/
def writtenBy : Stage → State → State → State
  | .writeback, s, t => { s with regs := t.regs, valid := t.valid, retired := t.retired, stage := t.stage }
  | .memory, s, t => { s with dm := t.dm, lM := t.lM, lW := t.lW, stage := t.stage }
  | .execute, s, t => { s with valid := t.valid, lF := t.lF, lD := t.lD, lE := t.lE, lM := t.lM, stage := t.stage }
  | .decode, s, t => { s with valid := t.valid, lD := t.lD, lE := t.lE, stage := t.stage }
  | .fetch, s, t => { s with pc := t.pc, lF := t.lF, lD := t.lD, stage := t.stage }

@[simp] theorem writtenBy_status (st : Stage) (s t : State) : (writtenBy st s t).status = s.status := by cases st <;> rfl

@[simp] theorem writtenBy_clock (st : Stage) (s t : State) : (writtenBy st s t).clock = s.clock := by cases st <;> rfl

theorem writtenBy_retired {st : Stage} (h : st ≠ .writeback) (s t : State) :
    (writtenBy st s t).retired = s.retired := by
  cases st with
  | writeback => contradiction
  | memory | execute | decode | fetch => rfl

/-- The frame of a stage step that raises nothing: no field changes but those it may write. -/
abbrev StageFrame (st : Stage) (s t : State) : Prop := t = writtenBy st s t

/-- How stage step `st` ends: by fault entry with all its writes discarded (60_exceptions.md R210), or within its frame. -/
def StageEnds (st : Stage) (s t : State) : Prop := (∃ f, t = takeFault s f) ∨ StageFrame st s t

/-- The action of stage `st` writes nothing outside the stage's frame. -/
def InFrame (st : Stage) (act : State → Except Raised State) : Prop :=
  ∀ ⦃s t : State⦄, act s = .ok t → StageFrame st s t

theorem StageFrame.refl (st : Stage) (s : State) : StageFrame st s s := by cases st <;> rfl

theorem issue_inFrame (src1 src2 dst : Option Reg) : InFrame .decode (issue src1 src2 dst) := by
  intro s t h
  obtain ⟨-, rfl⟩ | ⟨-, rfl⟩ := issue_ok.1 h
  · rfl
  · cases dst <;> rfl

theorem controlDecode_inFrame (op : OpBits) : InFrame .decode (controlDecode op) := by
  intro s t h
  cases hu : s.cfgUnimpl with
  | fault => simp [controlDecode_fault hu] at h
  | nop =>
    obtain rfl : s.setD { s.lD with stalled := false } = t := by simpa [controlDecode_nop hu] using h
    rfl

theorem executeWriter_inFrame (rd : Reg) (act : Latch → Latch) : InFrame .execute (executeWriter rd act) := by
  intro s t h
  obtain ⟨-, -, rfl⟩ | ⟨-, rfl⟩ := executeWriter_ok.1 h <;> rfl

theorem executeNonWriter_inFrame (act : Latch → Latch) : InFrame .execute (executeNonWriter act) := by
  rintro s _ ⟨⟩
  rfl

theorem executeTwoTicks_inFrame (rd : Reg) (act : Latch → Latch) : InFrame .execute (executeTwoTicks rd act) := by
  intro s t h
  cases hb : s.lE.busy with
  | false =>
    obtain rfl : mulStart s = t := by simpa [executeTwoTicks_start hb] using h
    rfl
  | true =>
    rw [executeTwoTicks_finish hb] at h
    have hframe : StageFrame .execute (mulFinish s) t := executeWriter_inFrame rd act h
    exact hframe

theorem passOn_inFrame (st : Stage) : InFrame st passOn := by
  rintro s _ ⟨⟩
  exact StageFrame.refl st s

theorem checkBounds_inFrame {access : State → State} (ha : ∀ s, StageFrame .memory s (access s)) :
    InFrame .memory (checkBounds access) := by
  intro s t h
  obtain ⟨-, rfl⟩ := checkBounds_ok.1 h
  exact ha s

theorem commit_inFrame (rd : Reg) : InFrame .writeback (commit rd) := by
  intro s t h
  obtain ⟨-, -, rfl⟩ | ⟨-, rfl⟩ := commit_ok.1 h <;> rfl

theorem retireOnly_inFrame : InFrame .writeback retireOnly := by
  rintro s _ ⟨⟩
  rfl

theorem fetchAct_frame (s : State) : StageFrame .fetch s (fetchAct s) := by
  obtain ⟨-, h⟩ | ⟨-, -, h⟩ | ⟨-, -, h⟩ := fetchAct_cases s <;> rw [h] <;> rfl

/-! ### The frame of an instruction's meaning -/

theorem settle_ends {st : Stage} {act : State → Except Raised State} {s t : State} (hact : InFrame st act)
    (h : settle s (act s) = .next t) : StageEnds st s t := by
  obtain hok | ⟨f, -, rfl⟩ := settle_next.1 h
  · exact .inr (hact hok)
  · exact .inl ⟨f, rfl⟩

theorem perStage_ends {de ex me wb : State → Except Raised State} {s t : State} (hde : InFrame .decode de)
    (hex : InFrame .execute ex) (hme : InFrame .memory me) (hwb : InFrame .writeback wb)
    (h : perStage de ex me wb s = .next t) : StageEnds s.stage s t := by
  cases hst : s.stage with
  | fetch =>
    obtain rfl : fetchAct s = t := by simpa [perStage_fetch hst] using h
    exact .inr (fetchAct_frame s)
  | decode => exact settle_ends hde (perStage_decode hst ▸ h)
  | execute => exact settle_ends hex (perStage_execute hst ▸ h)
  | memory => exact settle_ends hme (perStage_memory hst ▸ h)
  | writeback => exact settle_ends hwb (perStage_writeback hst ▸ h)

/-- The frame of every meaning in the stage that is running. -/
theorem exec_ends {i : Instr} {s t : State} (h : exec i s = .next t) : StageEnds s.stage s t := by
  cases i with
  | movc | add | sub | and | or | xor =>
    exact perStage_ends (issue_inFrame ..) (executeWriter_inFrame ..) (passOn_inFrame _) (commit_inFrame _) h
  | mul => exact perStage_ends (issue_inFrame ..) (executeTwoTicks_inFrame ..) (passOn_inFrame _) (commit_inFrame _) h
  | load =>
    exact perStage_ends (issue_inFrame ..) (executeWriter_inFrame ..)
      (checkBounds_inFrame (access := readIntoLatch) fun _ => rfl) (commit_inFrame _) h
  | store =>
    exact perStage_ends (issue_inFrame ..) (executeNonWriter_inFrame _)
      (checkBounds_inFrame (access := storeFromLatch) fun _ => rfl) retireOnly_inFrame h
  | bz | bnz | jump | halt =>
    exact perStage_ends (controlDecode_inFrame _) (passOn_inFrame _) (passOn_inFrame _) retireOnly_inFrame h

/-! ### The branches of the Decode step -/

theorem stepDE_of_structuralHazard {s : State} (h : structuralHazard s = true) :
    stepDE s = .next (s.setD { s.lD with stalled := true }) := by simp [stepDE, h]

theorem stepDE_of_bubble {s : State} (h : structuralHazard s = false) (hocc : s.lD.occ = false) :
    stepDE s = .next ((s.setD { s.lD with stalled := false }).setE { s.lD with stalled := false }) := by
  simp [stepDE, h, hocc]

theorem stepDE_of_instr {s : State} {i : Instr} (h : structuralHazard s = false) (hocc : s.lD.occ = true)
    (hi : s.lD.record.instr = .ok i) :
    stepDE s = thenRunning (exec i (s.atStage .decode)) fun t => .next (t.setE t.lD) := by
  simp [stepDE, h, hocc, hi]

theorem stepDE_of_reserved {s : State} {e : DecodeError} (h : structuralHazard s = false) (hocc : s.lD.occ = true)
    (hi : s.lD.record.instr = .error e) :
    stepDE s = .next (takeFault s ⟨.malformed, s.lD.pc, opInfo s.lD.op⟩) := by
  simp [stepDE, h, hocc, hi]

/-! ### The frame of a stage step -/

/-- The mark of the running stage is inside every frame, and fault entry overwrites it. -/
theorem exec_atStage_ends {i : Instr} {st : Stage} {s t : State} (h : exec i (s.atStage st) = .next t) :
    StageEnds st s t := by
  have hends : StageEnds st (s.atStage st) t := exec_ends h
  cases st <;> exact hends

theorem runLatch_of_instr {l : Latch} {i : Instr} (h : l.record.instr = .ok i) (st : Stage) (s : State) :
    runLatch l st s = exec i (s.atStage st) := by simp [runLatch, h]

theorem runLatch_next {l : Latch} {st : Stage} {s t : State} :
    runLatch l st s = .next t ↔ ∃ i, l.record.instr = .ok i ∧ exec i (s.atStage st) = .next t := by
  cases h : l.record.instr <;> simp [runLatch, h]

/-- A stage past Decode acts on its latch or does nothing. -/
theorem ite_runLatch_ends {acts : Bool} {l : Latch} {st : Stage} {s t : State}
    (h : (if acts then runLatch l st s else .next s) = .next t) : StageEnds st s t := by
  cases acts with
  | true =>
    obtain ⟨i, -, hexec⟩ := runLatch_next.1 h
    exact exec_atStage_ends hexec
  | false =>
    cases h
    exact .inr (StageFrame.refl st s)

/-- The copy into the next latch after a stage's action stays inside the frame, if the frame holds that latch. -/
theorem thenRunning_copy_ends {st : Stage} {o : Result} {copy : State → State} {s t : State}
    (ho : ∀ u, o = .next u → StageEnds st s u) (hcopy : ∀ u, StageFrame st s u → StageFrame st s (copy u))
    (h : thenRunning o (fun u => .next (copy u)) = .next t) : StageEnds st s t := by
  obtain ⟨u, hu, ⟨hrun, ⟨⟩⟩ | ⟨-, rfl⟩⟩ := thenRunning_next.1 h
  · obtain ⟨f, rfl⟩ | hframe := ho u hu
    · cases hrun
    · exact .inr (hcopy u hframe)
  · exact ho t hu

theorem stepWB_ends {s t : State} (h : stepWB s = .next t) : StageEnds .writeback s t := ite_runLatch_ends h

theorem stepMEM_ends {s t : State} (h : stepMEM s = .next t) : StageEnds .memory s t :=
  thenRunning_copy_ends (fun _ => ite_runLatch_ends) (fun u hu => (congrArg (State.setW · u.lM) hu :)) h

theorem stepEX_ends {s t : State} (h : stepEX s = .next t) : StageEnds .execute s t :=
  thenRunning_copy_ends (fun _ => ite_runLatch_ends) (fun u hu => (congrArg (State.setM · u.lE) hu :)) h

theorem stepDE_ends {s t : State} (h : stepDE s = .next t) : StageEnds .decode s t := by
  cases hstruct : structuralHazard s with
  | true =>
    rw [stepDE_of_structuralHazard hstruct] at h
    cases h
    exact .inr rfl
  | false =>
    cases hocc : s.lD.occ with
    | false =>
      rw [stepDE_of_bubble hstruct hocc] at h
      cases h
      exact .inr rfl
    | true =>
      cases hi : s.lD.record.instr with
      | ok i =>
        rw [stepDE_of_instr hstruct hocc hi] at h
        exact thenRunning_copy_ends (fun _ => exec_atStage_ends) (fun u hu => (congrArg (State.setE · u.lD) hu :)) h
      | error e =>
        rw [stepDE_of_reserved hstruct hocc hi] at h
        cases h
        exact .inl ⟨_, rfl⟩

theorem stepF_ends {s t : State} (h : stepF s = .next t) : StageEnds .fetch s t := by
  rw [stepF_eq] at h
  cases h
  exact .inr (fetchAct_frame (s.atStage .fetch))

/-! ### `clock` -/

/-- A stage step that leaves the machine Running has not counted the tick yet; fault entry has. -/
theorem StageEnds.clock {st : Stage} {s t : State} (h : StageEnds st s t) (hs : s.status = .running) :
    t.clock = if t.status = .running then s.clock else s.clock + 1 := by
  obtain ⟨f, rfl⟩ | hframe := h
  · simp
  · have hclock : t.clock = s.clock := by rw [hframe, writtenBy_clock]
    have hstatus : t.status = .running := by rw [hframe, writtenBy_status, hs]
    rw [if_pos hstatus, hclock]

/-- A stage step counts the tick if it ends it, and else leaves that to the rest of the tick. -/
theorem thenRunning_clock {st : Stage} {o : Result} {rest : State → Result} {s t : State}
    (ho : ∀ u, o = .next u → StageEnds st s u)
    (hrest : ∀ u, u.status = .running → rest u = .next t → t.clock = u.clock + 1) (hs : s.status = .running)
    (h : thenRunning o rest = .next t) : t.clock = s.clock + 1 := by
  obtain ⟨u, hu, ⟨hrun, ht⟩ | ⟨hstop, rfl⟩⟩ := thenRunning_next.1 h
  · rw [hrest u hrun ht, (ho u hu).clock hs, if_pos hrun]
  · rw [(ho t hu).clock hs, if_neg hstop]

@[simp] theorem endTick_clock (s : State) : (endTick s).clock = s.clock + 1 := by
  unfold endTick
  split <;> simp

theorem tick_clock {s t : State} (hs : s.status = .running) (h : tick s = .next t) : t.clock = s.clock + 1 :=
  thenRunning_clock (fun _ => stepWB_ends) (fun _ =>
    thenRunning_clock (fun _ => stepMEM_ends) fun _ =>
    thenRunning_clock (fun _ => stepEX_ends) fun _ =>
    thenRunning_clock (fun _ => stepDE_ends) fun _ =>
    thenRunning_clock (fun _ => stepF_ends) (by rintro u - ⟨⟩; simp)) hs h

/-- Settles O27: each stage step either leaves the tick uncounted and Running, or ends it counted. -/
theorem everyRunningTickAdvancesTheClock : Obligations.EveryRunningTickAdvancesTheClock := by
  intro s t hticks h
  rw [step_of_ticks hticks] at h
  exact tick_clock hticks.1 h

/-! ### `retired` -/

/-- What Writeback does with an instruction that writes `dst` (40_pipeline.md R114, R115). -/
def writebackAction (dst : Option Reg) : State → Except Raised State :=
  match dst with
  | some rd => commit rd
  | none => retireOnly

theorem exec_writeback (i : Instr) {s : State} (h : s.stage = .writeback) :
    exec i s = settle s (writebackAction (dstOf i) s) := by
  cases i <;> exact perStage_writeback h

/-- Writeback's double release, for the register it would release under `P_RELEASE = WB` (60_exceptions.md R205). -/
theorem wbRaises_of_instr {s : State} {i : Instr} (ha : s.lW.acts = true) (hi : s.lW.record.instr = .ok i) :
    wbRaises s = (decide (s.cfgRelease = .wb) && doubleRelease s (dstOf i)) := by
  simp [wbRaises, wbWrites, latchDst, ha, hi]

/-- Writeback of any instruction retires it, unless its release is a double one. -/
theorem settle_writebackAction_retired {dst : Option Reg} {s t : State}
    (h : settle s (writebackAction dst s) = .next t) :
    t.retired = if decide (s.cfgRelease = .wb) && doubleRelease s dst then s.retired else s.retired + 1 := by
  cases dst with
  | none =>
    cases h
    simp [doubleRelease]
  | some rd =>
    obtain hok | ⟨f, herr, rfl⟩ := settle_next.1 h
    · obtain ⟨-, hvalid, rfl⟩ | ⟨hex, rfl⟩ := commit_ok.1 hok
      · simp [doubleRelease, hvalid]
      · simp [hex]
    · obtain ⟨hwb, hvalid, -⟩ := commit_error.1 herr
      simp [doubleRelease, hwb, hvalid]

theorem stepWB_retired {s t : State} (h : stepWB s = .next t) :
    t.retired = if s.lW.acts && !wbRaises s then s.retired + 1 else s.retired := by
  cases ha : s.lW.acts with
  | false =>
    obtain rfl : s = t := by simpa [stepWB, ha] using h
    simp
  | true =>
    obtain ⟨i, hi, hexec⟩ := runLatch_next.1 ((if_pos ha).symm.trans h)
    rw [exec_writeback i (atStage_stage s .writeback)] at hexec
    have hret : t.retired = if wbRaises s then s.retired else s.retired + 1 := by
      rw [wbRaises_of_instr ha hi]
      exact (settle_writebackAction_retired hexec :)
    cases hw : wbRaises s <;> simpa [hw] using hret

/-- Only Writeback retires; fault entry keeps `retired`. -/
theorem StageEnds.retired {st : Stage} {s t : State} (h : StageEnds st s t) (hst : st ≠ .writeback) :
    t.retired = s.retired := by
  obtain ⟨f, rfl⟩ | hframe := h
  · rfl
  · rw [hframe, writtenBy_retired hst]

theorem thenRunning_retired {st : Stage} {o : Result} {rest : State → Result} {s t : State} (hst : st ≠ .writeback)
    (ho : ∀ u, o = .next u → StageEnds st s u) (hrest : ∀ u, rest u = .next t → t.retired = u.retired)
    (h : thenRunning o rest = .next t) : t.retired = s.retired := by
  obtain ⟨u, hu, ⟨-, ht⟩ | ⟨-, rfl⟩⟩ := thenRunning_next.1 h
  · exact (hrest u ht).trans ((ho u hu).retired hst)
  · exact (ho t hu).retired hst

@[simp] theorem endTick_retired (s : State) : (endTick s).retired = s.retired := by
  unfold endTick
  split <;> simp

/-- The steps after Writeback keep the count it left. -/
theorem tick_retired {s t : State} (h : tick s = .next t) : ∃ u, stepWB s = .next u ∧ t.retired = u.retired := by
  obtain ⟨u, hu, ⟨-, ht⟩ | ⟨-, rfl⟩⟩ := thenRunning_next.1 h
  · refine ⟨u, hu, ?_⟩
    exact thenRunning_retired (by decide) (fun _ => stepMEM_ends) (fun _ =>
      thenRunning_retired (by decide) (fun _ => stepEX_ends) fun _ =>
      thenRunning_retired (by decide) (fun _ => stepDE_ends) fun _ =>
      thenRunning_retired (by decide) (fun _ => stepF_ends) (by rintro v ⟨⟩; simp)) ht
  · exact ⟨t, hu, rfl⟩

theorem doubleRelease_iff {s : State} {dst : Option Reg} :
    doubleRelease s dst = true ↔ ∃ r, dst = some r ∧ s.validAt r = true := by
  cases dst <;> simp [doubleRelease]

theorem wbWrites_eq_some {s : State} {r : Reg} : wbWrites s = some r ↔ s.lW.acts = true ∧ latchDst s.lW = some r := by
  simp [wbWrites]

/-- Under WB an acting Writeback is itself the pending writer of its register, so the register is not valid (R157). -/
theorem wbRaises_of_conserved {s : State} (hsb : ScoreboardConserved s) : wbRaises s = false := by
  by_contra h
  obtain ⟨hwb, hdouble⟩ : s.cfgRelease = .wb ∧ doubleRelease s (wbWrites s) = true := by simpa [wbRaises] using h
  obtain ⟨r, hr, hvalid⟩ := doubleRelease_iff.1 hdouble
  obtain ⟨hacts, hdst⟩ := wbWrites_eq_some.1 hr
  have hholds : holdsWriter s.lW.acts s.lW r = 1 := by simp [holdsWriter, hacts, hdst]
  have hnone : pendingWriters s r = 0 := by simpa [hvalid] using hsb r
  simp [pendingWriters, hwb, hholds] at hnone

/-- Settles O28: Writeback counts its own action, the later steps keep the count, and R157 rules the double release out. -/
theorem retiredCountsWritebackActions : Obligations.RetiredCountsWritebackActions := by
  intro s t hticks h
  rw [step_of_ticks hticks] at h
  obtain ⟨u, hwb, ht⟩ := tick_retired h
  refine ⟨ht.trans (stepWB_retired hwb), fun hinv => wbRaises_of_conserved (hinv.scoreboard ?_)⟩
  simp [hticks.1]

/-! ### Execute: the multiply FSM and the copy into `L.M` -/

/-- A writer's Execute when its release finds the register pending, or is not due (40_pipeline.md R118, R123). -/
theorem executeWriter_releases {rd : Reg} {act : Latch → Latch} {s : State}
    (h : s.cfgRelease = .ex → s.validAt rd = false) :
    executeWriter rd act s =
      .ok { s with lE := act s.lE, valid := if s.cfgRelease = .ex then s.valid.set rd true else s.valid } := by
  by_cases hc : s.cfgRelease = .ex
  · rw [if_pos hc]
    exact executeWriter_ok.2 (.inl ⟨hc, h hc, rfl⟩)
  · have hwb : s.cfgRelease = .wb := by cases hr : s.cfgRelease <;> simp_all
    rw [if_neg hc]
    exact executeWriter_ok.2 (.inr ⟨hwb, rfl⟩)

theorem exec_mul_start {rd rs1 rs2 : Reg} {s : State} (hst : s.stage = .execute) (hb : s.lE.busy = false) :
    exec (.mul rd rs1 rs2) s = .next (mulStart s) :=
  (perStage_execute hst).trans (by rw [executeTwoTicks_start hb, settle_ok])

theorem exec_mul_finish {rd rs1 rs2 : Reg} {s : State} (hst : s.stage = .execute) (hb : s.lE.busy = true) :
    exec (.mul rd rs1 rs2) s =
      settle s (executeWriter rd (fun l => withRes (l.a * l.b) l) (mulFinish s)) :=
  (perStage_execute hst).trans (by simp only [executeTwoTicks_finish hb, wrap32_mul])

/-- Settles O11: one clause for each transition of the multiply FSM. -/
theorem multiplyTakesTwoExecuteTicks : Obligations.MultiplyTakesTwoExecuteTicks := by
  intro s rd rs1 rs2 hst
  refine ⟨fun hb => exec_mul_start hst hb, fun hb hpending => ?_⟩
  have hrelease : (mulFinish s).cfgRelease = .ex → (mulFinish s).validAt rd = false := hpending
  rw [exec_mul_finish hst hb, executeWriter_releases hrelease]
  rfl

theorem instr_of_mul_op {l : Latch} (h : l.op = 0x3#4) : l.record.instr = .ok (.mul l.rd l.rs1 l.rs2) := by
  simp [Record.instr, Latch.record, h]

/-- The Execute step of a MUL start, the copy into `L.M` included (40_pipeline.md R121, R125). -/
theorem stepEX_of_mulStarts {s : State} (hs : s.status = .running) (h : mulStarts s = true) :
    stepEX s = .next ((mulStart (s.atStage .execute)).setM { s.lE with busy := true }) := by
  simp only [mulStarts, Bool.and_eq_true, decide_eq_true_eq, Bool.not_eq_true'] at h
  obtain ⟨⟨hacts, hop⟩, hidle⟩ := h
  unfold stepEX
  rw [if_pos hacts, runLatch_of_instr (instr_of_mul_op hop), exec_mul_start (atStage_stage ..) hidle]
  exact thenRunning_running hs

/-- Settles O36: the copy is the last thing an Execute step that does not raise does. -/
theorem executeCopiesForwardInEveryTick : Obligations.ExecuteCopiesForwardInEveryTick := by
  intro s t hs h hrun
  refine ⟨?copy, fun hstart => ?start⟩
  case copy =>
    obtain ⟨u, -, ⟨-, ⟨⟩⟩ | ⟨hstop, rfl⟩⟩ := thenRunning_next.1 h
    · rfl
    · exact absurd hrun hstop
  case start =>
    rw [stepEX_of_mulStarts hs hstart] at h
    cases h
    exact ⟨rfl, by simp [Latch.acts]⟩

/-! ### Decode: the copy into `L.E` -/

/-- Every instruction but the control opcodes issues, from the sources and for the destination of its row of R83. -/
theorem exec_decode {i : Instr} {s : State} (hst : s.stage = .decode) (hi : isControl i = false) :
    exec i s = settle s (issue (src1Of i) (src2Of i) (dstOf i) s) := by
  cases i with
  | bz | bnz | jump | halt => cases hi
  | movc | add | sub | mul | and | or | xor | load | store => exact perStage_decode hst

/-- A control opcode names no register, so none of its registers is pending (43_control.md R190). -/
theorem dataHazard_of_isControl {i : Instr} (hi : isControl i = true) (s : State) :
    dataHazard (src1Of i) (src2Of i) (dstOf i) s = false := by
  cases i with
  | bz | bnz | jump | halt => simp [src1Of, src2Of, dstOf, dataHazard, pending]
  | movc | add | sub | mul | and | or | xor | load | store => cases hi

/-- A data hazard only marks the latch stalled (40_pipeline.md R131). -/
theorem exec_decode_of_dataHazard {i : Instr} {s : State} (hst : s.stage = .decode)
    (h : dataHazard (src1Of i) (src2Of i) (dstOf i) s = true) :
    exec i s = .next (s.setD { s.lD with stalled := true }) := by
  have hi : isControl i = false := by
    by_contra hc
    simp [dataHazard_of_isControl (by simpa using hc)] at h
  rw [exec_decode hst hi, issue_ok.2 (.inl ⟨h, rfl⟩), settle_ok]

/-- Without the structural hazard a Decode step that raises nothing ends with the copy (40_pipeline.md R132). -/
theorem stepDE_copies {s t : State} (h : structuralHazard s = false) (hstep : stepDE s = .next t)
    (hrun : t.status = .running) : t.lE = t.lD := by
  cases hocc : s.lD.occ with
  | false =>
    rw [stepDE_of_bubble h hocc] at hstep
    cases hstep
    rfl
  | true =>
    cases hi : s.lD.record.instr with
    | ok i =>
      rw [stepDE_of_instr h hocc hi] at hstep
      obtain ⟨u, -, ⟨-, ⟨⟩⟩ | ⟨hstop, rfl⟩⟩ := thenRunning_next.1 hstep
      · rfl
      · exact absurd hrun hstop
    | error e =>
      rw [stepDE_of_reserved h hocc hi] at hstep
      cases hstep
      cases hrun

theorem stepDE_of_dataHazard {s : State} {i : Instr} (hs : s.status = .running) (h : structuralHazard s = false)
    (hocc : s.lD.occ = true) (hi : s.lD.record.instr = .ok i)
    (hhz : dataHazard (src1Of i) (src2Of i) (dstOf i) s = true) :
    stepDE s = .next
      (((s.atStage .decode).setD { s.lD with stalled := true }).setE { s.lD with stalled := true }) := by
  rw [stepDE_of_instr h hocc hi, exec_decode_of_dataHazard (atStage_stage ..) hhz]
  exact thenRunning_running hs

/-- Settles O35: one clause for each branch of the Decode step. -/
theorem decodeHandsOnExceptUnderTheStructuralHazard : Obligations.DecodeHandsOnExceptUnderTheStructuralHazard := by
  intro s hs
  refine ⟨stepDE_of_structuralHazard, fun h t => stepDE_copies h, stepDE_of_bubble, fun h hocc i hi hhz => ?_⟩
  exact ⟨_, stepDE_of_dataHazard hs h hocc hi hhz, rfl, by simp [Latch.actsInExecute], by simp [Latch.acts]⟩

/-! ### Fetch -/

/-- The fetch index is exact at the address of record `k`: by R9 neither the product nor the sum wraps (R100). -/
theorem fetchIndex_of_address {p : Params} {n k : Nat} (hc : configOk p n = true) (hk : k ≤ n) :
    fetchIndex p (p.pcBase + p.pcStep * BitVec.ofNat 32 k) = k := by
  obtain ⟨hp, hlen⟩ := configOk_iff.1 hc
  have hstep : 0 < p.pcStep.toNat := by
    have hne : p.pcStep ≠ 0 := by simpa using (Bool.and_eq_true_iff.1 hp).2
    exact Nat.pos_of_ne_zero fun h => hne (BitVec.eq_of_toNat_eq h)
  have hprod : p.pcStep.toNat * k < 2 ^ 32 := by
    have hle : p.pcStep.toNat * k ≤ p.pcStep.toNat * n := Nat.mul_le_mul_left _ hk
    have hend : p.pcBase.toNat + p.pcStep.toNat * n < 2 ^ 32 := by simpa [programLengthOk] using hlen
    omega
  have hk32 : k < 2 ^ 32 := (Nat.le_mul_of_pos_left k hstep).trans_lt hprod
  rw [fetchIndex, add_sub_cancel_left, BitVec.toNat_udiv, BitVec.toNat_mul, BitVec.toNat_ofNat,
    Nat.mod_eq_of_lt hk32, Nat.mod_eq_of_lt hprod, Nat.mul_div_cancel_left k hstep]

/-- The multiply FSM holds `L.F`: Fetch does nothing (R140). -/
theorem stepF_of_held {s : State} (h : s.lF.busy = true ∨ s.lF.stalled = true) : stepF s = .next (s.atStage .fetch) := by
  rw [stepF_eq]
  obtain ⟨-, hact⟩ | ⟨hfree, -⟩ | ⟨hfree, -⟩ := fetchAct_cases (s.atStage .fetch)
  · rw [hact]
  · simp_all
  · simp_all

/-- Decode is stalled: Fetch loads and keeps what it loaded (R139). -/
theorem stepF_of_frozen {s : State} (hbusy : s.lF.busy = false) (hheld : s.lF.stalled = false)
    (hD : s.lD.stalled = true) : stepF s = .next ((s.atStage .fetch).setF s.fetchLatch) := by
  rw [stepF_eq]
  obtain ⟨hF, -⟩ | ⟨-, -, hact⟩ | ⟨-, hmoves, -⟩ := fetchAct_cases (s.atStage .fetch)
  · simp [hbusy, hheld] at hF
  · rw [hact, atStage_fetchLatch]
  · simp [hD] at hmoves

/-- Nothing is in the way: Fetch loads, advances `pc` past a record, and hands on (R138). -/
theorem stepF_of_free {s : State} (hbusy : s.lF.busy = false) (hheld : s.lF.stalled = false)
    (hD : s.lD.stalled = false) :
    stepF s = .next ((((s.atStage .fetch).setF s.fetchLatch).setPc
      (if s.fetchWord?.isSome then s.pc + s.params.pcStep else s.pc)).setD s.fetchLatch) := by
  rw [stepF_eq]
  obtain ⟨hF, -⟩ | ⟨-, hfrozen, -⟩ | ⟨-, -, hact⟩ := fetchAct_cases (s.atStage .fetch)
  · simp [hbusy, hheld] at hF
  · simp [hD] at hfrozen
  · rw [hact, atStage_fetchLatch, atStage_fetchWord, atStage_pc, atStage_params]

theorem fetchLatch_of_some {s : State} {w : RecordWord} (h : s.fetchWord? = some w) :
    s.fetchLatch = Latch.ofRecord s.pc (Record.ofWord w) := by simp [State.fetchLatch, h]

theorem fetchLatch_of_none {s : State} (h : s.fetchWord? = none) : s.fetchLatch = Latch.bubble s.pc := by
  simp [State.fetchLatch, h]

/-- Settles O34: the record at the fetch index is record `k`, and the Fetch step has one branch for each clause. -/
theorem fetchLoadsHandsOnOrFreezes : Obligations.FetchLoadsHandsOnOrFreezes := by
  intro s k hc hk hpc l
  have hword : s.fetchWord? = s.prog[k]? := by rw [State.fetchWord?, hpc, fetchIndex_of_address hc hk]
  have hl : s.fetchLatch = l := by
    cases hw : s.prog[k]? with
    | some w =>
      rw [fetchLatch_of_some (hword.trans hw)]
      simp [l, hw, Latch.ofRecord]
    | none =>
      rw [fetchLatch_of_none (hword.trans hw)]
      simp [l, hw, Latch.bubble, Latch.empty]
  have hrecord : s.fetchWord?.isSome = true ↔ k < s.progLen := by
    rw [hword, isSome_getElem?]
    rfl
  rw [← hl]
  refine ⟨fun hbusy hheld hD => ?_, stepF_of_frozen, stepF_of_held⟩
  rw [stepF_of_free hbusy hheld hD, if_congr hrecord rfl rfl]
  rfl

end Sys2Proof.Machine

/-! LOAD and STORE (42_loadstore.md): the effective address their Execute step computes (R180). -/

namespace Sys2Proof.Machine

/-! ### Execute: the effective address -/

/-- The least sum is that of two least words and the greatest that of two greatest: every address fits 33 bits
(42_loadstore.md R180). -/
theorem effectiveAddress_range (base : Word) (imm : Imm) :
    -2 ^ 32 ≤ (effectiveAddress base imm).toInt ∧ (effectiveAddress base imm).toInt ≤ 2 ^ 32 - 2 := by
  have hbase := And.intro (word_le_toInt base) (word_toInt_lt base)
  have himm := And.intro (word_le_toInt imm) (word_toInt_lt imm)
  rw [effectiveAddress_toInt]
  constructor <;> omega

/-- LOAD's base is the first operand, and it releases its destination as every writer does (42_loadstore.md R182). -/
theorem exec_load_execute {s : State} {rd : Reg} (rs1 : Reg) (imm : Word) (hst : s.stage = .execute)
    (hpending : s.cfgRelease = .ex → s.validAt rd = false) :
    exec (.load rd rs1 imm) s = .next
      { s with
        lE := withEa (effectiveAddress s.lE.a imm) s.lE
        valid := if s.cfgRelease = .ex then s.valid.set rd true else s.valid } :=
  (perStage_execute hst).trans (by rw [executeWriter_releases hpending, settle_ok])

/-- STORE's base is the second operand, and it releases nothing (42_loadstore.md R184). -/
theorem exec_store_execute {s : State} (rs1 rs2 : Reg) (imm : Word) (hst : s.stage = .execute) :
    exec (.store rs1 rs2 imm) s = .next (s.setE (withEa (effectiveAddress s.lE.b imm) s.lE)) :=
  perStage_execute hst

/-- Settles O12: `effectiveAddress` of the operand is the address, for LOAD and for STORE. -/
theorem loadAndStoreComputeTheExactAddress : Obligations.LoadAndStoreComputeTheExactAddress := by
  intro s rd rs1 rs2 imm hst
  refine ⟨fun hpending => ?load, ?store⟩
  case load =>
    obtain ⟨hlow, hhigh⟩ := effectiveAddress_range s.lE.a imm
    exact ⟨_, effectiveAddress_toInt s.lE.a imm, hlow, hhigh, exec_load_execute rs1 imm hst hpending⟩
  case store =>
    obtain ⟨hlow, hhigh⟩ := effectiveAddress_range s.lE.b imm
    exact ⟨_, effectiveAddress_toInt s.lE.b imm, hlow, hhigh, exec_store_execute rs1 rs2 imm hst⟩

end Sys2Proof.Machine

/-! The causes that one instruction raises: BOUNDS of an access at Memory (60_exceptions.md R202), and UNIMPL of a control
opcode at Decode, which no clock edge raises under `P_UNIMPL = Nop` (R203). -/

namespace Sys2Proof

/-! ### The instruction of a record -/

theorem Record.opcode_of_instr {r : Record} {i : Instr} (h : r.instr = .ok i) : i.opcode = r.op := by
  unfold Record.instr at h
  split at h
  case h_14 => cases h
  all_goals
    next hop =>
    cases h
    exact BitVec.eq_of_toNat_eq hop.symm

theorem Record.instr_of_opcodeKnown {r : Record} (h : r.op.toNat < 13) : ∃ i, r.instr = .ok i := by
  unfold Record.instr
  split
  case h_14 =>
    simp only [imp_false] at *
    omega
  all_goals exact ⟨_, rfl⟩

theorem Instr.opcode_lt (i : Instr) : i.opcode.toNat < 13 := by
  cases i <;> simp [Instr.opcode]

/-- The opcodes 0xD to 0xF name no instruction (30_encoding.md R87). -/
theorem Record.instr_of_reserved {r : Record} (h : 13 ≤ r.op.toNat) : ∃ e, r.instr = .error e := by
  cases hi : r.instr with
  | ok i =>
    have hlt : i.opcode.toNat < 13 := i.opcode_lt
    rw [Record.opcode_of_instr hi] at hlt
    omega
  | error e => exact ⟨e, rfl⟩

end Sys2Proof

namespace Sys2Proof.Machine

/-- A writer's destination is the record's own `rd` field (30_encoding.md R83). -/
theorem dstOf_of_instr {r : Record} {i : Instr} {q : Reg} (h : r.instr = .ok i) (hq : dstOf i = some q) : q = r.rd := by
  unfold Record.instr at h
  split at h <;> cases h <;> simp [dstOf] at hq <;> exact hq.symm

theorem latchDst_of_instr {l : Latch} {i : Instr} (h : l.record.instr = .ok i) : latchDst l = dstOf i := by
  simp [latchDst, h]

theorem latchDst_eq_rd {l : Latch} {q : Reg} (h : latchDst l = some q) : q = l.rd := by
  cases hi : l.record.instr with
  | ok i => exact dstOf_of_instr hi (latchDst_of_instr hi ▸ h)
  | error e => simp [latchDst, hi] at h

/-- The control opcodes are 9 to 12 (30_encoding.md R82). -/
theorem isControl_iff (i : Instr) : isControl i = true ↔ 9 ≤ i.opcode.toNat := by
  cases i <;> simp [isControl, Instr.opcode]

/-! ### The Memory step's action -/

/-- What Memory does with an instruction: a checked access for LOAD and STORE, and nothing for the others
(40_pipeline.md R117). -/
def memoryAction (i : Instr) : State → Except Raised State :=
  match i with
  | .load .. => checkBounds readIntoLatch
  | .store .. => checkBounds storeFromLatch
  | _ => passOn

theorem exec_memory (i : Instr) {s : State} (h : s.stage = .memory) : exec i s = settle s (memoryAction i s) := by
  cases i <;> exact perStage_memory h

theorem inBounds_eq_false_iff {size : Nat} {ea : Word33} :
    inBounds size ea = false ↔ ea.toInt < 0 ∨ (size : Int) ≤ ea.toInt := by
  simp only [inBounds, Bool.and_eq_false_iff, decide_eq_false_iff_not, not_le, not_lt]

/-- R202: both accesses check the address first, and out of bounds neither is made. -/
theorem memoryAction_out_of_bounds {i : Instr} {s : State} (hi : i.opcode = 0x7#4 ∨ i.opcode = 0x8#4)
    (hout : inBounds s.params.dmSize s.lM.ea = false) :
    memoryAction i s = .error ⟨.bounds, s.lM.pc, s.lM.ea⟩ := by
  cases i with
  | load | store => exact checkBounds_error.2 ⟨hout, rfl⟩
  | movc | add | sub | mul | and | or | xor | bz | bnz | jump | halt => simp [Instr.opcode] at hi

/-- Settles O15: the check precedes the access, and `settle` turns its raise into fault entry. -/
theorem outOfBoundsAccessRaisesBounds : Obligations.OutOfBoundsAccessRaisesBounds := by
  intro i s hi hst hea
  rw [exec_memory i hst, memoryAction_out_of_bounds hi (inBounds_eq_false_iff.2 hea)]
  rfl

/-! ### UNIMPL -/

/-- R203: under `P_UNIMPL = Fault` Decode of a control opcode raises UNIMPL. -/
theorem exec_decode_control {i : Instr} {s : State} (hi : isControl i = true) (hst : s.stage = .decode)
    (hu : s.cfgUnimpl = .fault) : exec i s = .next (takeFault s ⟨.unimpl, s.lD.pc, opInfo i.opcode⟩) := by
  cases i with
  | bz | bnz | jump | halt => exact (perStage_decode hst).trans (by rw [controlDecode_fault hu]; rfl)
  | movc | add | sub | mul | and | or | xor | load | store => cases hi

theorem stepDE_unimpl {s : State} (hstruct : structuralHazard s = false) (hocc : s.lD.occ = true)
    (hlow : 9 ≤ s.lD.op.toNat) (hhigh : s.lD.op.toNat ≤ 12) (hu : s.cfgUnimpl = .fault) :
    stepDE s = .next (takeFault s ⟨.unimpl, s.lD.pc, opInfo s.lD.op⟩) := by
  obtain ⟨i, hi⟩ := Record.instr_of_opcodeKnown (r := s.lD.record) (Nat.lt_succ_of_le hhigh)
  have hop : i.opcode = s.lD.op := Record.opcode_of_instr hi
  have hcontrol : isControl i = true := (isControl_iff i).2 (hop ▸ hlow)
  rw [stepDE_of_instr hstruct hocc hi, exec_decode_control hcontrol (atStage_stage ..) hu, hop]
  exact thenRunning_stopped (by simp)

/-- `P_UNIMPL` is Nop and no UNIMPL is recorded. -/
structure FreeOfUnimpl (s : State) : Prop where
  nop : s.cfgUnimpl = .nop
  code : s.faultCode ≠ .unimpl

theorem takeFault_freeOfUnimpl {s : State} {f : Raised} (hs : FreeOfUnimpl s) (hf : f.code ≠ .unimpl) :
    FreeOfUnimpl (takeFault s f) := ⟨hs.nop, hf⟩

@[simp] theorem writtenBy_faultCode (st : Stage) (s t : State) : (writtenBy st s t).faultCode = s.faultCode := by
  cases st <;> rfl

@[simp] theorem writtenBy_cfgUnimpl (st : Stage) (s t : State) : (writtenBy st s t).cfgUnimpl = s.cfgUnimpl := by
  cases st <;> rfl

/-- The fault registers are in no stage's frame. -/
theorem StageFrame.freeOfUnimpl {st : Stage} {s t : State} (h : StageFrame st s t) (hs : FreeOfUnimpl s) :
    FreeOfUnimpl t := by
  obtain ⟨hnop, hcode⟩ := hs
  rw [h]
  exact ⟨by simpa using hnop, by simpa using hcode⟩

/-- A stage action keeps `FreeOfUnimpl`, whether it raises or not. -/
def KeepsFreeOfUnimpl (act : State → Except Raised State) : Prop :=
  ∀ ⦃s t : State⦄, FreeOfUnimpl s → settle s (act s) = .next t → FreeOfUnimpl t

/-- The action's own writes are inside its frame, so only what it raises matters. -/
theorem keepsFreeOfUnimpl_of_inFrame {st : Stage} {act : State → Except Raised State} (hframe : InFrame st act)
    (hraise : ∀ s f, s.cfgUnimpl = .nop → act s = .error f → f.code ≠ .unimpl) : KeepsFreeOfUnimpl act := by
  intro s t hs h
  obtain hok | ⟨f, herr, rfl⟩ := settle_next.1 h
  · exact (hframe hok).freeOfUnimpl hs
  · exact takeFault_freeOfUnimpl hs (hraise s f hs.nop herr)

theorem issue_keepsFreeOfUnimpl (src1 src2 dst : Option Reg) : KeepsFreeOfUnimpl (issue src1 src2 dst) :=
  keepsFreeOfUnimpl_of_inFrame (issue_inFrame ..) fun _ _ _ h => (issue_ne_error _ _ _ _ _ h).elim

theorem controlDecode_keepsFreeOfUnimpl (op : OpBits) : KeepsFreeOfUnimpl (controlDecode op) := by
  refine keepsFreeOfUnimpl_of_inFrame (controlDecode_inFrame op) fun s f hu h => ?_
  rw [controlDecode_nop hu] at h
  cases h

/-- A writer's raise at Execute is SB_INVARIANT (R205). -/
theorem executeWriter_keepsFreeOfUnimpl (rd : Reg) (act : Latch → Latch) :
    KeepsFreeOfUnimpl (executeWriter rd act) := by
  refine keepsFreeOfUnimpl_of_inFrame (executeWriter_inFrame rd act) fun s f _ h => ?_
  obtain ⟨-, -, rfl⟩ := executeWriter_error.1 h
  simp

theorem executeTwoTicks_keepsFreeOfUnimpl (rd : Reg) (act : Latch → Latch) :
    KeepsFreeOfUnimpl (executeTwoTicks rd act) := by
  refine keepsFreeOfUnimpl_of_inFrame (executeTwoTicks_inFrame rd act) fun s f _ h => ?_
  cases hb : s.lE.busy with
  | false =>
    rw [executeTwoTicks_start hb] at h
    cases h
  | true =>
    rw [executeTwoTicks_finish hb] at h
    obtain ⟨-, -, rfl⟩ := executeWriter_error.1 h
    simp

theorem executeNonWriter_keepsFreeOfUnimpl (act : Latch → Latch) : KeepsFreeOfUnimpl (executeNonWriter act) :=
  keepsFreeOfUnimpl_of_inFrame (executeNonWriter_inFrame act) (by rintro _ _ _ ⟨⟩)

theorem passOn_keepsFreeOfUnimpl : KeepsFreeOfUnimpl passOn :=
  keepsFreeOfUnimpl_of_inFrame (passOn_inFrame .memory) (by rintro _ _ _ ⟨⟩)

/-- The raise of an access is BOUNDS (R202). -/
theorem checkBounds_keepsFreeOfUnimpl {access : State → State} (ha : ∀ s, StageFrame .memory s (access s)) :
    KeepsFreeOfUnimpl (checkBounds access) := by
  refine keepsFreeOfUnimpl_of_inFrame (checkBounds_inFrame ha) fun s f _ h => ?_
  obtain ⟨-, rfl⟩ := checkBounds_error.1 h
  simp

/-- A writer's raise at Writeback is SB_INVARIANT (R205). -/
theorem commit_keepsFreeOfUnimpl (rd : Reg) : KeepsFreeOfUnimpl (commit rd) := by
  refine keepsFreeOfUnimpl_of_inFrame (commit_inFrame rd) fun s f _ h => ?_
  obtain ⟨-, -, rfl⟩ := commit_error.1 h
  simp

theorem retireOnly_keepsFreeOfUnimpl : KeepsFreeOfUnimpl retireOnly :=
  keepsFreeOfUnimpl_of_inFrame retireOnly_inFrame (by rintro _ _ _ ⟨⟩)

theorem perStage_freeOfUnimpl {de ex me wb : State → Except Raised State} {s t : State} (hde : KeepsFreeOfUnimpl de)
    (hex : KeepsFreeOfUnimpl ex) (hme : KeepsFreeOfUnimpl me) (hwb : KeepsFreeOfUnimpl wb) (hs : FreeOfUnimpl s)
    (h : perStage de ex me wb s = .next t) : FreeOfUnimpl t := by
  cases hst : s.stage with
  | fetch =>
    obtain rfl : fetchAct s = t := by simpa [perStage_fetch hst] using h
    exact (fetchAct_frame s).freeOfUnimpl hs
  | decode => exact hde hs (perStage_decode hst ▸ h)
  | execute => exact hex hs (perStage_execute hst ▸ h)
  | memory => exact hme hs (perStage_memory hst ▸ h)
  | writeback => exact hwb hs (perStage_writeback hst ▸ h)

/-- No meaning raises UNIMPL under Nop, in whatever stage it runs. -/
theorem exec_freeOfUnimpl {i : Instr} {s t : State} (hs : FreeOfUnimpl s) (h : exec i s = .next t) :
    FreeOfUnimpl t := by
  cases i with
  | movc | add | sub | and | or | xor =>
    exact perStage_freeOfUnimpl (issue_keepsFreeOfUnimpl ..) (executeWriter_keepsFreeOfUnimpl ..)
      passOn_keepsFreeOfUnimpl (commit_keepsFreeOfUnimpl _) hs h
  | mul =>
    exact perStage_freeOfUnimpl (issue_keepsFreeOfUnimpl ..) (executeTwoTicks_keepsFreeOfUnimpl ..)
      passOn_keepsFreeOfUnimpl (commit_keepsFreeOfUnimpl _) hs h
  | load =>
    exact perStage_freeOfUnimpl (issue_keepsFreeOfUnimpl ..) (executeWriter_keepsFreeOfUnimpl ..)
      (checkBounds_keepsFreeOfUnimpl (access := readIntoLatch) fun _ => rfl) (commit_keepsFreeOfUnimpl _) hs h
  | store =>
    exact perStage_freeOfUnimpl (issue_keepsFreeOfUnimpl ..) (executeNonWriter_keepsFreeOfUnimpl _)
      (checkBounds_keepsFreeOfUnimpl (access := storeFromLatch) fun _ => rfl) retireOnly_keepsFreeOfUnimpl hs h
  | bz | bnz | jump | halt =>
    exact perStage_freeOfUnimpl (controlDecode_keepsFreeOfUnimpl _) passOn_keepsFreeOfUnimpl passOn_keepsFreeOfUnimpl
      retireOnly_keepsFreeOfUnimpl hs h

/-- A property that the first part of a tick establishes and the rest of the tick keeps, if it runs at all. -/
theorem thenRunning_preserves {P : State → Prop} {o : Result} {rest : State → Result} {t : State}
    (ho : ∀ u, o = .next u → P u) (hrest : ∀ u, P u → rest u = .next t → P t) (h : thenRunning o rest = .next t) :
    P t := by
  obtain ⟨u, hu, ⟨-, ht⟩ | ⟨-, rfl⟩⟩ := thenRunning_next.1 h
  · exact hrest u (ho u hu) ht
  · exact ho t hu

theorem runLatch_freeOfUnimpl {acts : Bool} {l : Latch} {st : Stage} {s t : State} (hs : FreeOfUnimpl s)
    (h : (if acts then runLatch l st s else .next s) = .next t) : FreeOfUnimpl t := by
  cases acts with
  | true =>
    obtain ⟨i, -, hexec⟩ := runLatch_next.1 h
    exact exec_freeOfUnimpl (s := s.atStage st) ⟨hs.nop, hs.code⟩ hexec
  | false =>
    cases h
    exact hs

theorem stepWB_freeOfUnimpl {s t : State} (hs : FreeOfUnimpl s) (h : stepWB s = .next t) : FreeOfUnimpl t :=
  runLatch_freeOfUnimpl hs h

theorem stepMEM_freeOfUnimpl {s t : State} (hs : FreeOfUnimpl s) (h : stepMEM s = .next t) : FreeOfUnimpl t :=
  thenRunning_preserves (fun _ => runLatch_freeOfUnimpl hs) (by rintro u hu ⟨⟩; exact ⟨hu.nop, hu.code⟩) h

theorem stepEX_freeOfUnimpl {s t : State} (hs : FreeOfUnimpl s) (h : stepEX s = .next t) : FreeOfUnimpl t :=
  thenRunning_preserves (fun _ => runLatch_freeOfUnimpl hs) (by rintro u hu ⟨⟩; exact ⟨hu.nop, hu.code⟩) h

/-- Decode's own raise, of a reserved opcode, is MALFORMED (R204). -/
theorem stepDE_freeOfUnimpl {s t : State} (hs : FreeOfUnimpl s) (h : stepDE s = .next t) : FreeOfUnimpl t := by
  cases hstruct : structuralHazard s with
  | true =>
    rw [stepDE_of_structuralHazard hstruct] at h
    cases h
    exact ⟨hs.nop, hs.code⟩
  | false =>
    cases hocc : s.lD.occ with
    | false =>
      rw [stepDE_of_bubble hstruct hocc] at h
      cases h
      exact ⟨hs.nop, hs.code⟩
    | true =>
      cases hi : s.lD.record.instr with
      | ok i =>
        rw [stepDE_of_instr hstruct hocc hi] at h
        exact thenRunning_preserves (fun _ => exec_freeOfUnimpl (s := s.atStage .decode) ⟨hs.nop, hs.code⟩)
          (by rintro u hu ⟨⟩; exact ⟨hu.nop, hu.code⟩) h
      | error e =>
        rw [stepDE_of_reserved hstruct hocc hi] at h
        cases h
        exact takeFault_freeOfUnimpl hs (by simp)

theorem stepF_freeOfUnimpl {s t : State} (hs : FreeOfUnimpl s) (h : stepF s = .next t) : FreeOfUnimpl t := by
  rw [stepF_eq] at h
  cases h
  exact (fetchAct_frame (s.atStage .fetch)).freeOfUnimpl ⟨hs.nop, hs.code⟩

theorem endTick_freeOfUnimpl {s : State} (hs : FreeOfUnimpl s) : FreeOfUnimpl (endTick s) := by
  unfold endTick
  split <;> exact ⟨hs.nop, hs.code⟩

theorem tick_freeOfUnimpl {s t : State} (hs : FreeOfUnimpl s) (h : tick s = .next t) : FreeOfUnimpl t :=
  thenRunning_preserves (fun _ => stepWB_freeOfUnimpl hs) (fun _ hs1 =>
    thenRunning_preserves (fun _ => stepMEM_freeOfUnimpl hs1) fun _ hs2 =>
    thenRunning_preserves (fun _ => stepEX_freeOfUnimpl hs2) fun _ hs3 =>
    thenRunning_preserves (fun _ => stepDE_freeOfUnimpl hs3) fun _ hs4 =>
    thenRunning_preserves (fun _ => stepF_freeOfUnimpl hs4) (by rintro _ hs5 ⟨⟩; exact endTick_freeOfUnimpl hs5)) h

/-- The reset edge clears the fault registers (10_state.md R43), and an edge that takes no tick keeps them. -/
theorem step_freeOfUnimpl {s t : State} (hs : FreeOfUnimpl s) (h : step s = .next t) : FreeOfUnimpl t := by
  obtain ⟨-, ⟨-, rfl⟩ | ⟨-, htick⟩ | ⟨-, -, rfl⟩⟩ := step_next_cases h
  · exact ⟨hs.nop, nofun⟩
  · exact tick_freeOfUnimpl hs htick
  · exact hs

/-- Settles O37: `stepDE_unimpl` under Fault, and under Nop `FreeOfUnimpl` is kept by every clock edge. -/
theorem unimplIsRaisedUnderFaultAndNeverUnderNop : Obligations.UnimplIsRaisedUnderFaultAndNeverUnderNop :=
  ⟨fun _ => stepDE_unimpl, fun _ _ hnop hcode h => (step_freeOfUnimpl ⟨hnop, hcode⟩ h).code⟩

end Sys2Proof.Machine

/-! Fault entry in each stage step of a tick (60_exceptions.md R205, R210, R211). -/

namespace Sys2Proof.Machine

/-! ### What a stage step that raises nothing leaves -/

/-- `s` after its Writeback step (40_pipeline.md R114, R115, R118). -/
def afterWriteback (s : State) : State :=
  { s with
    regs := regsMid s, retired := retiredNext s
    valid := if s.cfgRelease = .wb then validMid s else s.valid }

/-- `s` after its Memory step (R117). -/
def afterMemory (s : State) : State := { s with dm := dmNext s, lM := mPlus s, lW := mPlus s }

/-- `s` after an Execute step that starts no MUL (R122 to R125). -/
def afterExecute (s : State) : State :=
  { s with
    valid := if s.cfgRelease = .ex then validMid s else s.valid
    lE := ePlus s, lM := ePlus s
    lF := if mulFinishes s then { s.lF with stalled := false } else s.lF
    lD := if mulFinishes s then { s.lD with stalled := false } else s.lD }

/-! ### Writeback -/

theorem afterWriteback_of_idle {s : State} (h : s.lW.acts = false) : afterWriteback s = s := by
  have hvalid : (if s.cfgRelease = .wb then validMid s else s.valid) = s.valid := by
    cases hc : s.cfgRelease <;> simp [validMid, releases, wbWrites, h, hc]
  simp [afterWriteback, hvalid, regsMid, retiredNext, wbWrites, h]

theorem writebackAction_passes {s : State} (ha : s.lW.acts = true) (hno : wbRaises s = false) :
    writebackAction (latchDst s.lW) s = .ok (afterWriteback s) := by
  cases hd : latchDst s.lW with
  | none =>
    have hafter : afterWriteback s = s.retire := by
      cases hc : s.cfgRelease <;>
        simp [afterWriteback, regsMid, validMid, releases, retiredNext, wbWrites, State.retire, ha, hd, hc]
    rw [hafter]
    rfl
  | some rd =>
    refine commit_ok.2 ?_
    cases hc : s.cfgRelease with
    | ex =>
      refine .inr ⟨rfl, ?_⟩
      simp [afterWriteback, regsMid, retiredNext, wbWrites, State.retire, State.setReg, ha, hd, hc]
    | wb =>
      refine .inl ⟨rfl, ?_, ?_⟩
      · simpa [wbRaises, wbWrites, doubleRelease, ha, hd, hc] using hno
      · simp [afterWriteback, regsMid, validMid, releases, retiredNext, wbWrites, State.retire, State.setReg,
          State.setValid, ha, hd, hc]

theorem stepWB_of_instr {s : State} {i : Instr} (ha : s.lW.acts = true) (hi : s.lW.record.instr = .ok i) :
    stepWB s = settle (s.atStage .writeback) (writebackAction (latchDst s.lW) (s.atStage .writeback)) := by
  rw [stepWB, if_pos ha, runLatch_of_instr hi, exec_writeback i (atStage_stage ..), latchDst_of_instr hi]

theorem stepWB_passes {s : State} (hlegal : s.lW.acts = true → s.lW.op.toNat < 13) (hno : wbRaises s = false) :
    ∃ st, stepWB s = .next ((afterWriteback s).atStage st) := by
  cases ha : s.lW.acts with
  | false =>
    refine ⟨s.stage, ?_⟩
    rw [afterWriteback_of_idle ha]
    exact if_neg (by simp [ha])
  | true =>
    obtain ⟨i, hi⟩ := Record.instr_of_opcodeKnown (r := s.lW.record) (hlegal ha)
    refine ⟨.writeback, ?_⟩
    rw [stepWB_of_instr ha hi]
    exact congrArg (settle _) (writebackAction_passes (s := s.atStage .writeback) ha hno)

/-- A double release at Writeback discards the whole tick (60_exceptions.md R205). -/
theorem stepWB_raises {s : State} (hlegal : s.lW.acts = true → s.lW.op.toNat < 13) (h : wbRaises s = true) :
    stepWB s = .next (takeFault s ⟨.sbInvariant, s.lW.pc, regInfo s.lW.rd⟩) := by
  obtain ⟨hwb, hdouble⟩ : s.cfgRelease = .wb ∧ doubleRelease s (wbWrites s) = true := by simpa [wbRaises] using h
  obtain ⟨r, hr, hvalid⟩ := doubleRelease_iff.1 hdouble
  obtain ⟨ha, hdst⟩ := wbWrites_eq_some.1 hr
  obtain ⟨i, hi⟩ := Record.instr_of_opcodeKnown (r := s.lW.record) (hlegal ha)
  rw [stepWB_of_instr ha hi, hdst]
  obtain rfl : r = s.lW.rd := latchDst_eq_rd hdst
  have hraise : writebackAction (some s.lW.rd) (s.atStage .writeback) =
      .error ⟨.sbInvariant, s.lW.pc, regInfo s.lW.rd⟩ := commit_error.2 ⟨hwb, hvalid, rfl⟩
  rw [hraise]
  rfl

/-! ### Memory -/

theorem afterMemory_of_idle {s : State} (h : s.lM.acts = false) : afterMemory s = s.setW s.lM := by
  simp [afterMemory, dmNext, mPlus, h, State.setW]

/-- An action that does not raise leaves what `afterMemory` says, but for the copy into `L.W` still to come. -/
theorem memoryAction_passes {i : Instr} {s : State} (ha : s.lM.acts = true) (hi : s.lM.record.instr = .ok i)
    (hno : memRaises s = false) : memoryAction i s = .ok { s with dm := dmNext s, lM := mPlus s } := by
  have hop : s.lM.op = i.opcode := (Record.opcode_of_instr hi).symm
  cases i with
  | load =>
    refine checkBounds_ok.2 ⟨?_, ?_⟩
    · simpa [memRaises, accessesMemory, ha, hop, Instr.opcode] using hno
    · simp [dmNext, mPlus, ha, hop, Instr.opcode, readIntoLatch, State.setM, State.loadCell, cellOf]
  | store =>
    refine checkBounds_ok.2 ⟨?_, ?_⟩
    · simpa [memRaises, accessesMemory, ha, hop, Instr.opcode] using hno
    · simp [dmNext, mPlus, ha, hop, Instr.opcode, storeFromLatch, State.storeCell, State.setDm, cellOf]
  | movc | add | sub | mul | and | or | xor | bz | bnz | jump | halt =>
    simp [memoryAction, passOn, dmNext, mPlus, hop, Instr.opcode]

theorem stepMEM_of_instr {s : State} {i : Instr} (ha : s.lM.acts = true) (hi : s.lM.record.instr = .ok i) :
    stepMEM s = thenRunning (settle (s.atStage .memory) (memoryAction i (s.atStage .memory))) fun t =>
      .next (t.setW t.lM) := by
  rw [stepMEM, if_pos ha, runLatch_of_instr hi, exec_memory i (atStage_stage ..)]

theorem stepMEM_passes {s : State} (hs : s.status = .running) (hlegal : s.lM.acts = true → s.lM.op.toNat < 13)
    (hno : memRaises s = false) : ∃ st, stepMEM s = .next ((afterMemory s).atStage st) := by
  cases ha : s.lM.acts with
  | false =>
    refine ⟨s.stage, ?_⟩
    rw [afterMemory_of_idle ha, stepMEM, if_neg (by simp [ha])]
    exact thenRunning_running hs
  | true =>
    obtain ⟨i, hi⟩ := Record.instr_of_opcodeKnown (r := s.lM.record) (hlegal ha)
    refine ⟨.memory, ?_⟩
    rw [stepMEM_of_instr ha hi, memoryAction_passes (s := s.atStage .memory) ha hi hno]
    exact thenRunning_running hs

theorem stepMEM_raises {s : State} (hlegal : s.lM.acts = true → s.lM.op.toNat < 13) (h : memRaises s = true) :
    stepMEM s = .next (takeFault s ⟨.bounds, s.lM.pc, s.lM.ea⟩) := by
  obtain ⟨⟨ha, haccess⟩, hout⟩ :
      (s.lM.acts = true ∧ (s.lM.op = 0x7#4 ∨ s.lM.op = 0x8#4)) ∧ inBounds s.params.dmSize s.lM.ea = false := by
    simpa [memRaises, accessesMemory] using h
  obtain ⟨i, hi⟩ := Record.instr_of_opcodeKnown (r := s.lM.record) (hlegal ha)
  rw [← show i.opcode = s.lM.op from Record.opcode_of_instr hi] at haccess
  rw [stepMEM_of_instr ha hi, memoryAction_out_of_bounds (s := s.atStage .memory) haccess hout]
  exact thenRunning_stopped (by simp)

/-! ### Execute -/

theorem sum_signExtend_eq_effectiveAddress (base : Word) (imm : Imm) :
    base.signExtend 33 + imm.signExtend 33 = effectiveAddress base imm := by
  simp [effectiveAddress, s32, BitVec.ofInt_add, BitVec.signExtend]

/-- What an instruction computes in the Execute tick that completes it, in the words of its own meaning. -/
def instrAct (i : Instr) (l : Latch) : Latch :=
  match i with
  | .movc _ imm => withRes imm l
  | .add .. => withRes (wrap32 (s32 l.a + s32 l.b)) l
  | .sub .. => withRes (wrap32 (s32 l.a - s32 l.b)) l
  | .mul .. => withRes (l.a * l.b) l
  | .and .. => withRes (l.a &&& l.b) l
  | .or .. => withRes (l.a ||| l.b) l
  | .xor .. => withRes (l.a ^^^ l.b) l
  | .load _ _ imm => withEa (effectiveAddress l.a imm) l
  | .store _ _ imm => withEa (effectiveAddress l.b imm) l
  | .bz | .bnz | .jump | .halt => l

theorem instrAct_eq_exAction {i : Instr} {l : Latch} (hi : l.record.instr = .ok i) : instrAct i l = exAction l := by
  unfold Record.instr at hi
  split at hi <;> cases hi
  all_goals
    next hop =>
    simp only [Latch.record] at hop
    simp [instrAct, exAction, hop, withRes, withEa, Latch.record, sum_signExtend_eq_effectiveAddress]

/-- The Execute tick that completes an instruction with destination `dst` (40_pipeline.md R123, R124). -/
def completeExecute (dst : Option Reg) (act : Latch → Latch) : State → Except Raised State :=
  match dst with
  | some rd => executeWriter rd act
  | none => executeNonWriter act

theorem completeExecute_congr {act act' : Latch → Latch} {s : State} (dst : Option Reg) (h : act s.lE = act' s.lE) :
    completeExecute dst act s = completeExecute dst act' s := by
  cases dst with
  | none => simp [completeExecute, executeNonWriter, h]
  | some rd =>
    simp only [completeExecute, executeWriter, releaseAt, sbRelease]
    by_cases hc : s.cfgRelease = .ex <;> by_cases hv : s.validAt rd = true <;> simp [hc, hv, h]

/-- The state an instruction completes Execute in: a MUL's finish transition comes first (R122). -/
def unfreeze (s : State) : State := if mulFinishes s then mulFinish s else s

section
variable (s : State)

@[simp] theorem unfreeze_valid : (unfreeze s).valid = s.valid := by unfold unfreeze; split <;> rfl
@[simp] theorem unfreeze_validAt (q : Reg) : (unfreeze s).validAt q = s.validAt q := by
  simp only [State.validAt, unfreeze_valid]
@[simp] theorem unfreeze_status : (unfreeze s).status = s.status := by unfold unfreeze; split <;> rfl
@[simp] theorem unfreeze_cfgRelease : (unfreeze s).cfgRelease = s.cfgRelease := by unfold unfreeze; split <;> rfl
@[simp] theorem unfreeze_lE_pc : (unfreeze s).lE.pc = s.lE.pc := by unfold unfreeze; split <;> rfl

end

theorem exec_execute_single {i : Instr} {s : State} (hst : s.stage = .execute) (hmul : i.opcode ≠ 0x3#4) :
    exec i s = settle s (completeExecute (dstOf i) (instrAct i) s) := by
  cases i with
  | mul => exact absurd rfl hmul
  | movc | add | sub | and | or | xor | load | store | bz | bnz | jump | halt => exact perStage_execute hst

/-- Every instruction that completes in this tick computes `exAction`, a MUL after its finish transition. -/
theorem exec_execute_completes {i : Instr} {s : State} (hst : s.stage = .execute) (hi : s.lE.record.instr = .ok i)
    (he : eExecutes s = true) : exec i s = settle s (completeExecute (latchDst s.lE) exAction (unfreeze s)) := by
  obtain ⟨hacts, hstart⟩ : s.lE.actsInExecute = true ∧ mulStarts s = false := by simpa [eExecutes] using he
  have hop : i.opcode = s.lE.op := Record.opcode_of_instr hi
  rw [latchDst_of_instr hi]
  by_cases hmul : s.lE.op = 0x3#4
  · obtain rfl : Instr.mul s.lE.rd s.lE.rs1 s.lE.rs2 = i := by simpa [instr_of_mul_op hmul] using hi
    have hbusy : s.lE.busy = true := by simpa [mulStarts, hacts, hmul] using hstart
    have hfinish : unfreeze s = mulFinish s := if_pos (by simp [mulFinishes, hacts, hmul, hbusy])
    rw [exec_mul_finish hst hbusy, hfinish]
    exact congrArg (settle s) (completeExecute_congr (some s.lE.rd) (instrAct_eq_exAction (l := (mulFinish s).lE) hi))
  · have hsame : unfreeze s = s := if_neg (by simp [mulFinishes, hmul])
    rw [exec_execute_single hst (hop ▸ hmul), hsame, completeExecute_congr _ (instrAct_eq_exAction hi)]

theorem ePlus_of_idle {s : State} (h : s.lE.actsInExecute = false) : ePlus s = s.lE := by
  simp [ePlus, mulStarts, mulFinishes, eExecutes, h]

theorem ePlus_of_eExecutes {s : State} (he : eExecutes s = true) : ePlus s = exAction (unfreeze s).lE := by
  have hstart : mulStarts s = false := by simpa using (Bool.and_eq_true_iff.1 he).2
  cases hf : mulFinishes s <;> simp [ePlus, unfreeze, mulFinish, hstart, he, hf]

theorem afterExecute_of_idle {s : State} (h : s.lE.actsInExecute = false) : afterExecute s = s.setM s.lE := by
  have hvalid : (if s.cfgRelease = .ex then validMid s else s.valid) = s.valid := by
    cases hc : s.cfgRelease <;> simp [validMid, releases, eExecutes, h, hc]
  simp [afterExecute, hvalid, ePlus_of_idle h, mulFinishes, h, State.setM]

theorem afterExecute_eq_unfreeze (s : State) :
    afterExecute s =
      { unfreeze s with
        valid := if s.cfgRelease = .ex then validMid s else s.valid, lE := ePlus s, lM := ePlus s } := by
  cases hf : mulFinishes s <;> simp [afterExecute, unfreeze, mulFinish, hf, State.setE, State.setF, State.setD]

/-- An action that does not raise leaves what `afterExecute` says, but for the copy into `L.M` still to come. -/
theorem completeExecute_passes {s : State} (he : eExecutes s = true) (hno : exRaises s = false) :
    completeExecute (latchDst s.lE) exAction (unfreeze s) =
      .ok { unfreeze s with valid := if s.cfgRelease = .ex then validMid s else s.valid, lE := ePlus s } := by
  cases hd : latchDst s.lE with
  | none =>
    have hkept : (if s.cfgRelease = .ex then validMid s else s.valid) = s.valid := by
      cases hc : s.cfgRelease <;> simp [validMid, releases, he, hd, hc]
    rw [hkept, ePlus_of_eExecutes he, ← unfreeze_valid]
    rfl
  | some rd =>
    have hpending : (unfreeze s).cfgRelease = .ex → (unfreeze s).validAt rd = false := by
      rw [unfreeze_cfgRelease, unfreeze_validAt]
      intro hc
      simpa [exRaises, doubleRelease, he, hd, hc] using hno
    have hset : (if s.cfgRelease = .ex then validMid s else s.valid) =
        if s.cfgRelease = .ex then s.valid.set rd true else s.valid := by
      cases hc : s.cfgRelease <;> simp [validMid, releases, he, hd, hc]
    rw [hset, ePlus_of_eExecutes he, ← unfreeze_valid, ← unfreeze_cfgRelease]
    exact executeWriter_releases hpending

theorem stepEX_of_eExecutes {s : State} (hlegal : s.lE.actsInExecute = true → s.lE.op.toNat < 13)
    (he : eExecutes s = true) :
    stepEX s = thenRunning
      (settle (s.atStage .execute) (completeExecute (latchDst s.lE) exAction (unfreeze (s.atStage .execute)))) fun t =>
        .next (t.setM t.lE) := by
  have hacts : s.lE.actsInExecute = true := (Bool.and_eq_true_iff.1 he).1
  obtain ⟨i, hi⟩ := Record.instr_of_opcodeKnown (r := s.lE.record) (hlegal hacts)
  rw [stepEX, if_pos hacts, runLatch_of_instr hi,
    exec_execute_completes (s := s.atStage .execute) (atStage_stage ..) hi he]
  rfl

theorem stepEX_passes {s : State} (hs : s.status = .running)
    (hlegal : s.lE.actsInExecute = true → s.lE.op.toNat < 13) (hstart : mulStarts s = false)
    (hno : exRaises s = false) : ∃ st, stepEX s = .next ((afterExecute s).atStage st) := by
  cases hacts : s.lE.actsInExecute with
  | false =>
    refine ⟨s.stage, ?_⟩
    rw [afterExecute_of_idle hacts, stepEX, if_neg (by simp [hacts])]
    exact thenRunning_running hs
  | true =>
    have he : eExecutes s = true := by simp [eExecutes, hacts, hstart]
    refine ⟨.execute, ?_⟩
    have hpass := completeExecute_passes (s := s.atStage .execute) he hno
    have hafter : (afterExecute s).atStage .execute = _ := afterExecute_eq_unfreeze (s.atStage .execute)
    rw [atStage_lE] at hpass
    rw [stepEX_of_eExecutes hlegal he, hpass, hafter]
    exact thenRunning_running ((unfreeze_status _).trans hs)

/-- A double release at Execute discards a finish transition too (60_exceptions.md R205, R210). -/
theorem stepEX_raises {s : State} (hlegal : s.lE.actsInExecute = true → s.lE.op.toNat < 13)
    (h : exRaises s = true) : stepEX s = .next (takeFault s ⟨.sbInvariant, s.lE.pc, regInfo s.lE.rd⟩) := by
  obtain ⟨hex, hdouble⟩ :
      s.cfgRelease = .ex ∧ doubleRelease s (if eExecutes s then latchDst s.lE else none) = true := by
    simpa [exRaises] using h
  obtain ⟨r, hr, hvalid⟩ := doubleRelease_iff.1 hdouble
  obtain ⟨he, hdst⟩ : eExecutes s = true ∧ latchDst s.lE = some r := by simpa using hr
  obtain rfl : r = s.lE.rd := latchDst_eq_rd hdst
  have hraise : completeExecute (some s.lE.rd) exAction (unfreeze (s.atStage .execute)) =
      .error ⟨.sbInvariant, s.lE.pc, regInfo s.lE.rd⟩ :=
    executeWriter_error.2 ⟨by simpa using hex, by simpa using hvalid, by simp⟩
  rw [stepEX_of_eExecutes hlegal he, hdst, hraise]
  exact thenRunning_stopped (by simp)

/-! ### Decode -/

section
variable (l : Latch)

@[simp] theorem exAction_occ : (exAction l).occ = l.occ := by unfold exAction; split <;> rfl
@[simp] theorem exAction_op : (exAction l).op = l.op := by unfold exAction; split <;> rfl
@[simp] theorem exAction_busy : (exAction l).busy = l.busy := by unfold exAction; split <;> rfl
@[simp] theorem exAction_stalled : (exAction l).stalled = l.stalled := by unfold exAction; split <;> rfl

end

/-- R127, R128: only a MUL start leaves the structural hazard for Decode. -/
theorem structuralHazard_afterExecute {s : State} (hstart : mulStarts s = false) :
    structuralHazard (afterExecute s) = false := by
  cases hacts : s.lE.actsInExecute with
  | false =>
    rw [afterExecute_of_idle hacts]
    simp only [Latch.actsInExecute, Bool.and_eq_false_iff, Bool.not_eq_false'] at hacts
    obtain hocc | hstalled := hacts
    · simp [structuralHazard, hocc]
    · simp [structuralHazard, hstalled]
  | true =>
    have he : eExecutes s = true := by simp [eExecutes, hacts, hstart]
    have hlE : (afterExecute s).lE = exAction (unfreeze s).lE := ePlus_of_eExecutes he
    cases hf : mulFinishes s with
    | true => simp [structuralHazard, hlE, unfreeze, hf, mulFinish]
    | false =>
      have hnot : s.lE.op = 0x3#4 → s.lE.busy = false := fun hop => by simpa [mulFinishes, hacts, hop] using hf
      have hfirst : s.lE.op ≠ 0x3#4 := fun hop => by simp [mulStarts, hacts, hop, hnot hop] at hstart
      simp [structuralHazard, hlE, unfreeze, hf, hfirst]

section
variable (s : State)

@[simp] theorem afterExecute_lD_occ : (afterExecute s).lD.occ = s.lD.occ := by
  cases hf : mulFinishes s <;> simp [afterExecute, hf]
@[simp] theorem afterExecute_lD_op : (afterExecute s).lD.op = s.lD.op := by
  cases hf : mulFinishes s <;> simp [afterExecute, hf]
@[simp] theorem afterExecute_lD_pc : (afterExecute s).lD.pc = s.lD.pc := by
  cases hf : mulFinishes s <;> simp [afterExecute, hf]
@[simp] theorem afterExecute_cfgUnimpl : (afterExecute s).cfgUnimpl = s.cfgUnimpl := rfl

end

theorem stepDE_malformed {s : State} (hstruct : structuralHazard s = false) (hocc : s.lD.occ = true)
    (hop : 13 ≤ s.lD.op.toNat) : stepDE s = .next (takeFault s ⟨.malformed, s.lD.pc, opInfo s.lD.op⟩) := by
  obtain ⟨e, he⟩ := Record.instr_of_reserved (r := s.lD.record) hop
  exact stepDE_of_reserved hstruct hocc he

/-- What Decode raises on an occupied latch that nothing holds: MALFORMED on a reserved opcode, and UNIMPL on a control
opcode under `P_UNIMPL = Fault` (60_exceptions.md R203, R204). -/
def decodeFault (s : State) : Option Raised :=
  if 13 ≤ s.lD.op.toNat then some ⟨.malformed, s.lD.pc, opInfo s.lD.op⟩
  else if s.cfgUnimpl = .fault ∧ 9 ≤ s.lD.op.toNat then some ⟨.unimpl, s.lD.pc, opInfo s.lD.op⟩
  else none

@[simp] theorem decodeFault_atStage (s : State) (st : Stage) : decodeFault (s.atStage st) = decodeFault s := rfl

/-- The finish transition clears a flag of `L.D` that Decode's raises do not read. -/
@[simp] theorem decodeFault_afterExecute (s : State) : decodeFault (afterExecute s) = decodeFault s := by
  simp [decodeFault]

theorem stepDE_raises {s : State} {f : Raised} (hstruct : structuralHazard s = false) (hocc : s.lD.occ = true)
    (h : decodeFault s = some f) : stepDE s = .next (takeFault s f) := by
  unfold decodeFault at h
  split at h
  · next hop =>
    cases h
    obtain ⟨e, he⟩ := Record.instr_of_reserved (r := s.lD.record) hop
    exact stepDE_of_reserved hstruct hocc he
  · next hop =>
    split at h
    · next hunimpl =>
      cases h
      exact stepDE_unimpl hstruct hocc hunimpl.2 (by omega) hunimpl.1
    · cases h

/-! ### The first raise of a tick -/

section
variable {s : State} {f : Raised}

theorem firstRaise_of_wbRaises (hwb : wbRaises s = true) (hf : firstRaise s = some f) :
    f = ⟨.sbInvariant, s.lW.pc, regInfo s.lW.rd⟩ := by
  simpa [firstRaise, hwb, eq_comm] using hf

theorem firstRaise_of_memRaises (hwb : wbRaises s = false) (hmem : memRaises s = true) (hf : firstRaise s = some f) :
    f = ⟨.bounds, s.lM.pc, s.lM.ea⟩ := by
  simpa [firstRaise, hwb, hmem, eq_comm] using hf

theorem firstRaise_of_exRaises (hwb : wbRaises s = false) (hmem : memRaises s = false) (hex : exRaises s = true)
    (hf : firstRaise s = some f) : f = ⟨.sbInvariant, s.lE.pc, regInfo s.lE.rd⟩ := by
  simpa [firstRaise, hwb, hmem, hex, eq_comm] using hf

/-- What is left is Decode's raise, on a latch it processes. -/
theorem firstRaise_of_decode (hwb : wbRaises s = false) (hmem : memRaises s = false) (hex : exRaises s = false)
    (hf : firstRaise s = some f) : s.lD.occ = true ∧ mulStarts s = false ∧ decodeFault s = some f := by
  have hprocesses : decodeProcesses s = true := by
    by_contra hnot
    simp [firstRaise, hwb, hmem, hex, malformedRaises, unimplRaises, hnot] at hf
  obtain ⟨hocc, hstart⟩ : s.lD.occ = true ∧ mulStarts s = false := by simpa [decodeProcesses] using hprocesses
  refine ⟨hocc, hstart, ?_⟩
  rw [← hf]
  by_cases hop : 13 ≤ s.lD.op.toNat
  · simp [decodeFault, firstRaise, hwb, hmem, hex, malformedRaises, hprocesses, hop]
  · have hhigh : s.lD.op.toNat ≤ 12 := by omega
    simp [decodeFault, firstRaise, hwb, hmem, hex, malformedRaises, unimplRaises, hprocesses, hop, hhigh]

end

/-! ### The faulting tick -/

/-- The tick from its Decode step on. -/
def tickFromDecode (s : State) : Result :=
  thenRunning (stepDE s) fun t => thenRunning (stepF t) fun u => .next (endTick u)

/-- The tick from its Execute step on. -/
def tickFromExecute (s : State) : Result := thenRunning (stepEX s) tickFromDecode

/-- The tick from its Memory step on. -/
def tickFromMemory (s : State) : Result := thenRunning (stepMEM s) tickFromExecute

theorem tick_eq (s : State) : tick s = thenRunning (stepWB s) tickFromMemory := rfl

theorem thenRunning_of_running {o : Result} {rest : State → Result} {u : State} (ho : o = .next u)
    (hu : u.status = .running) : thenRunning o rest = rest u := ho ▸ thenRunning_running hu

theorem thenRunning_of_takeFault {o : Result} {rest : State → Result} {u : State} {f : Raised}
    (ho : o = .next (takeFault u f)) : thenRunning o rest = .next (takeFault u f) :=
  ho ▸ thenRunning_stopped (by simp)

/-- Under EX neither Writeback nor Memory touches the scoreboard (40_pipeline.md R118). -/
theorem afterMemory_valid_of_ex {s : State} (h : s.cfgRelease = .ex) :
    (afterMemory (afterWriteback s)).valid = s.valid := by
  simp [afterMemory, afterWriteback, h]

theorem exRaises_afterMemory (s : State) : exRaises (afterMemory (afterWriteback s)) = exRaises s := by
  cases hc : s.cfgRelease with
  | ex =>
    have hdouble : doubleRelease (afterMemory (afterWriteback s)) = doubleRelease s := by
      funext dst
      cases dst <;> simp [doubleRelease, State.validAt, afterMemory_valid_of_ex hc]
    rw [exRaises, hdouble]
    rfl
  | wb => simp [exRaises, afterMemory, afterWriteback, hc]

/-- Only the release that `P_RELEASE` selects happens in a tick, so after Execute the scoreboard is `validMid`. -/
theorem afterExecute_valid (s : State) : (afterExecute (afterMemory (afterWriteback s))).valid = validMid s := by
  cases hc : s.cfgRelease with
  | ex =>
    have hreleases : releases (afterMemory (afterWriteback s)) = releases s := by
      unfold releases
      rw [hc, show (afterMemory (afterWriteback s)).cfgRelease = .ex from hc]
      rfl
    have hmid : validMid (afterMemory (afterWriteback s)) = validMid s := by
      rw [validMid, validMid, hreleases, afterMemory_valid_of_ex hc]
    exact (if_pos hc).trans hmid
  | wb => simp [afterExecute, afterMemory, afterWriteback, hc]

section
variable {s : State} {f : Raised}

theorem tick_past_writeback (hs : s.status = .running) (hlegal : LegalPastDecode s) (hwb : wbRaises s = false) :
    ∃ st, tick s = tickFromMemory ((afterWriteback s).atStage st) := by
  obtain ⟨st, hstep⟩ := stepWB_passes hlegal.legalW hwb
  exact ⟨st, thenRunning_of_running hstep hs⟩

theorem tick_past_memory (hs : s.status = .running) (hlegal : LegalPastDecode s) (hwb : wbRaises s = false)
    (hmem : memRaises s = false) : ∃ st, tick s = tickFromExecute ((afterMemory (afterWriteback s)).atStage st) := by
  obtain ⟨st, htick⟩ := tick_past_writeback hs hlegal hwb
  obtain ⟨st', hstep⟩ := stepMEM_passes (s := (afterWriteback s).atStage st) hs hlegal.legalM hmem
  exact ⟨st', htick.trans (thenRunning_of_running hstep hs)⟩

theorem tick_past_execute (hs : s.status = .running) (hlegal : LegalPastDecode s) (hwb : wbRaises s = false)
    (hmem : memRaises s = false) (hex : exRaises s = false) (hstart : mulStarts s = false) :
    ∃ st, tick s = tickFromDecode ((afterExecute (afterMemory (afterWriteback s))).atStage st) := by
  obtain ⟨st, htick⟩ := tick_past_memory hs hlegal hwb hmem
  obtain ⟨st', hstep⟩ := stepEX_passes (s := (afterMemory (afterWriteback s)).atStage st) hs hlegal.legalE hstart
    ((exRaises_afterMemory s).trans hex)
  exact ⟨st', htick.trans (thenRunning_of_running hstep hs)⟩

theorem tick_of_wbRaises (hlegal : LegalPastDecode s) (hwb : wbRaises s = true) (hf : firstRaise s = some f) :
    tick s = .next (takeFault s f) := by
  rw [firstRaise_of_wbRaises hwb hf]
  exact thenRunning_of_takeFault (stepWB_raises hlegal.legalW hwb)

theorem tick_of_memRaises (hs : s.status = .running) (hlegal : LegalPastDecode s) (hwb : wbRaises s = false)
    (hmem : memRaises s = true) (hf : firstRaise s = some f) : tick s = .next (takeFault (afterWriteback s) f) := by
  obtain ⟨st, htick⟩ := tick_past_writeback hs hlegal hwb
  rw [htick, firstRaise_of_memRaises hwb hmem hf]
  exact thenRunning_of_takeFault (stepMEM_raises (s := (afterWriteback s).atStage st) hlegal.legalM hmem)

theorem tick_of_exRaises (hs : s.status = .running) (hlegal : LegalPastDecode s) (hwb : wbRaises s = false)
    (hmem : memRaises s = false) (hex : exRaises s = true) (hf : firstRaise s = some f) :
    tick s = .next (takeFault (afterMemory (afterWriteback s)) f) := by
  obtain ⟨st, htick⟩ := tick_past_memory hs hlegal hwb hmem
  have hraises : exRaises ((afterMemory (afterWriteback s)).atStage st) = true := (exRaises_afterMemory s).trans hex
  rw [htick, firstRaise_of_exRaises hwb hmem hex hf]
  exact thenRunning_of_takeFault (stepEX_raises hlegal.legalE hraises)

theorem tick_of_decodeFault (hs : s.status = .running) (hlegal : LegalPastDecode s) (hwb : wbRaises s = false)
    (hmem : memRaises s = false) (hex : exRaises s = false) (hf : firstRaise s = some f) :
    tick s = .next (takeFault (afterExecute (afterMemory (afterWriteback s))) f) := by
  obtain ⟨hocc, hstart, hfault⟩ := firstRaise_of_decode hwb hmem hex hf
  obtain ⟨st, htick⟩ := tick_past_execute hs hlegal hwb hmem hex hstart
  have hstruct := structuralHazard_afterExecute (s := afterMemory (afterWriteback s)) hstart
  have hocc' := (afterExecute_lD_occ (afterMemory (afterWriteback s))).trans hocc
  have hfault' := (decodeFault_afterExecute (afterMemory (afterWriteback s))).trans hfault
  rw [htick]
  exact thenRunning_of_takeFault (stepDE_raises (s := (afterExecute (afterMemory (afterWriteback s))).atStage st)
    hstruct hocc' hfault')

end

/-- Settles O40: fault entry in each of the four steps that can raise, on what the steps before it leave. -/
theorem faultEntryDiscardsTheFaultingStepAndTheLaterOnes :
    Obligations.FaultEntryDiscardsTheFaultingStepAndTheLaterOnes := by
  intro s hticks hrest hlegal f hf entry afterWB afterMEM afterEX
  have hs : s.status = .running := hticks.1
  have hentry : ∀ u : State, u.stage = .fetch → u.clock = s.clock → takeFault u f = entry u := by
    intro u hstage hclock
    simp [takeFault, entry, hstage, hclock]
  have hafterEX : afterExecute (afterMemory (afterWriteback s)) = afterEX :=
    calc
      _ = { afterExecute (afterMemory (afterWriteback s)) with valid := validMid s } := by rw [← afterExecute_valid]
      _ = afterEX := rfl
  rw [step_of_ticks hticks]
  refine ⟨fun hwb => ?writeback, fun hwb hmem => ?memory, fun hwb hmem hex => ?execute, fun hwb hmem hex => ?decode⟩
  case writeback => rw [tick_of_wbRaises hlegal hwb hf, hentry s hrest rfl]
  case memory => exact hentry afterWB hrest rfl ▸ tick_of_memRaises hs hlegal hwb hmem hf
  case execute => exact hentry afterMEM hrest rfl ▸ tick_of_exRaises hs hlegal hwb hmem hex hf
  case decode => rw [tick_of_decodeFault hs hlegal hwb hmem hex hf, hafterEX, hentry afterEX hrest rfl]

end Sys2Proof.Machine

/-! The tick that raises nothing (40_pipeline.md R105, R144): its Decode and Fetch steps, and the advance mux. -/

namespace Sys2Proof.Machine

/-! ### The Decode step that raises nothing -/

/-- Decode finds a data hazard on the instruction its latch holds (40_pipeline.md R127, R129). -/
def decodeHazard (s : State) : Bool :=
  s.lD.occ && dataHazard (latchSrcs s.lD).1 (latchSrcs s.lD).2 (latchDst s.lD) s

/-- What Decode leaves in `L.D` and hands on: an issued instruction with its operands, or the latch with its mark
(R130, R131, R134). -/
def decodedLatch (s : State) : Latch :=
  if s.lD.occ && !decodeHazard s then
    { s.lD with
      stalled := false
      a := operand s (latchSrcs s.lD).1 s.lD.a, b := operand s (latchSrcs s.lD).2 s.lD.b }
  else { s.lD with stalled := decodeHazard s }

/-- The scoreboard after an acquire (R110). -/
def acquired (dst : Option Reg) (valid : Vector Bool Config.nregs) : Vector Bool Config.nregs :=
  match dst with
  | some r => valid.set r false
  | none => valid

/-- `s` after a Decode step that raises nothing, without the structural hazard (R112, R132). -/
def afterDecode (s : State) : State :=
  { s with
    valid := acquired (if s.lD.occ && !decodeHazard s then latchDst s.lD else none) s.valid
    lD := decodedLatch s, lE := decodedLatch s }

theorem latchSrcs_of_instr {l : Latch} {i : Instr} (h : l.record.instr = .ok i) :
    latchSrcs l = (src1Of i, src2Of i) := by simp [latchSrcs, h]

theorem acquire_eq (dst : Option Reg) (s : State) : acquire dst s = { s with valid := acquired dst s.valid } := by
  cases dst <;> rfl

theorem sources_of_isControl {i : Instr} (hi : isControl i = true) :
    src1Of i = none ∧ src2Of i = none ∧ dstOf i = none := by
  cases i with
  | bz | bnz | jump | halt => exact ⟨rfl, rfl, rfl⟩
  | movc | add | sub | mul | and | or | xor | load | store => cases hi

/-- Decode of a legal instruction is an issue, but for a control opcode under `P_UNIMPL = Fault` (R127;
43_control.md R190). -/
theorem exec_decode_issues {i : Instr} {s : State} (hst : s.stage = .decode)
    (hno : isControl i = true → s.cfgUnimpl = .nop) :
    exec i s = settle s (issue (src1Of i) (src2Of i) (dstOf i) s) := by
  cases hi : isControl i with
  | false => exact exec_decode hst hi
  | true =>
    have hu := hno hi
    obtain ⟨h1, h2, h3⟩ := sources_of_isControl hi
    rw [h1, h2, h3]
    cases i with
    | bz | bnz | jump | halt => exact (perStage_decode hst).trans (by simp [controlDecode, hu])
    | movc | add | sub | mul | and | or | xor | load | store => cases hi

/-- With no raise due, the instruction in an occupied `L.D` is a legal one that issues or stalls. -/
theorem instr_of_decodeFault_none {s : State} (h : decodeFault s = none) :
    ∃ i, s.lD.record.instr = .ok i ∧ (isControl i = true → s.cfgUnimpl = .nop) := by
  have hop : s.lD.op.toNat < 13 := by
    by_contra hge
    simp [decodeFault, show 13 ≤ s.lD.op.toNat by omega] at h
  obtain ⟨i, hi⟩ := Record.instr_of_opcodeKnown (r := s.lD.record) hop
  refine ⟨i, hi, fun hc => ?_⟩
  have hcode : i.opcode = s.lD.op := Record.opcode_of_instr hi
  have hlow : 9 ≤ s.lD.op.toNat := hcode ▸ (isControl_iff i).1 hc
  cases hu : s.cfgUnimpl with
  | nop => rfl
  | fault => simp [decodeFault, hu, hlow, show ¬13 ≤ s.lD.op.toNat by omega] at h

theorem issue_eq_afterDecode {s : State} {i : Instr} (hocc : s.lD.occ = true) (hi : s.lD.record.instr = .ok i) :
    issue (src1Of i) (src2Of i) (dstOf i) s = .ok ((afterDecode s).setE s.lE) := by
  have hhz : decodeHazard s = dataHazard (src1Of i) (src2Of i) (dstOf i) s := by
    simp [decodeHazard, hocc, latchSrcs_of_instr hi, latchDst_of_instr hi]
  refine issue_ok.2 ?_
  cases h : dataHazard (src1Of i) (src2Of i) (dstOf i) s with
  | true =>
    refine .inl ⟨rfl, ?_⟩
    simp [afterDecode, decodedLatch, hhz, h, acquired, State.setD, State.setE]
  | false =>
    refine .inr ⟨rfl, ?_⟩
    rw [acquire_eq]
    simp [afterDecode, decodedLatch, hhz, h, hocc, latchSrcs_of_instr hi, latchDst_of_instr hi, State.setD, State.setE]

theorem stepDE_passes {s : State} (hs : s.status = .running) (hstruct : structuralHazard s = false)
    (hno : s.lD.occ = true → decodeFault s = none) : ∃ st, stepDE s = .next ((afterDecode s).atStage st) := by
  cases hocc : s.lD.occ with
  | false =>
    refine ⟨s.stage, (stepDE_of_bubble hstruct hocc).trans ?_⟩
    simp [afterDecode, decodedLatch, decodeHazard, hocc, acquired, State.setD, State.setE, State.atStage]
  | true =>
    obtain ⟨i, hi, hcontrol⟩ := instr_of_decodeFault_none (hno hocc)
    refine ⟨.decode, ?_⟩
    rw [stepDE_of_instr hstruct hocc hi, exec_decode_issues (atStage_stage ..) hcontrol,
      issue_eq_afterDecode (s := s.atStage .decode) hocc hi]
    exact thenRunning_of_running (u := ((afterDecode s).atStage .decode).setE s.lE) rfl hs

/-! ### The tick that raises nothing -/

section
variable {s : State}

/-- Decode's two raises are what `decodeFault` says of a latch that Decode processes (60_exceptions.md R203, R204). -/
theorem decode_raises_none_iff :
    (malformedRaises s = false ∧ unimplRaises s = false) ↔ (decodeProcesses s = true → decodeFault s = none) := by
  cases hp : decodeProcesses s with
  | false => simp [malformedRaises, unimplRaises, hp]
  | true =>
    by_cases hop : 13 ≤ s.lD.op.toNat
    · simp [malformedRaises, decodeFault, hp, hop]
    · have hhigh : s.lD.op.toNat ≤ 12 := by omega
      simp [malformedRaises, unimplRaises, decodeFault, hp, hop, hhigh]

theorem ite_some_eq_none_iff {c : Bool} {f : Raised} {o : Option Raised} :
    (if c then some f else o) = none ↔ c = false ∧ o = none := by cases c <;> simp

/-- A tick raises nothing iff none of its four steps does. -/
theorem firstRaise_eq_none_iff :
    firstRaise s = none ↔
      wbRaises s = false ∧ memRaises s = false ∧ exRaises s = false ∧
        (decodeProcesses s = true → decodeFault s = none) := by
  rw [← decode_raises_none_iff]
  simp only [firstRaise, ite_some_eq_none_iff, and_true]

/-- `s` after the four steps before Fetch, when no MUL starts. -/
def beforeFetch (s : State) : State := afterDecode (afterExecute (afterMemory (afterWriteback s)))

/-- `s` after the four steps before Fetch, when a MUL starts: Decode only marks its latch, once more (R121, R128). -/
def beforeFetchOfMulStart (s : State) : State :=
  (mulStart (afterMemory (afterWriteback s))).setM { s.lE with busy := true }

theorem fetch_endTick {u : State} (hu : u.status = .running) :
    (thenRunning (stepF u) fun v => .next (endTick v)) = .next (endTick (fetchAct (u.atStage .fetch))) := by
  rw [stepF_eq]
  refine thenRunning_running ?_
  rw [fetchAct_frame (u.atStage .fetch), writtenBy_status, atStage_status, hu]

theorem tick_of_no_mulStart (hs : s.status = .running) (hlegal : LegalPastDecode s) (hno : firstRaise s = none)
    (hstart : mulStarts s = false) : tick s = .next (endTick (fetchAct ((beforeFetch s).atStage .fetch))) := by
  obtain ⟨hwb, hmem, hex, hquiet⟩ := firstRaise_eq_none_iff.1 hno
  obtain ⟨st, htick⟩ := tick_past_execute hs hlegal hwb hmem hex hstart
  have hdecode : (afterExecute (afterMemory (afterWriteback s))).lD.occ = true →
      decodeFault (afterExecute (afterMemory (afterWriteback s))) = none := by
    rw [afterExecute_lD_occ, decodeFault_afterExecute]
    exact fun hocc => hquiet (Bool.and_eq_true_iff.2 ⟨hocc, by simp [hstart]⟩)
  obtain ⟨st', hstep⟩ := stepDE_passes (s := (afterExecute (afterMemory (afterWriteback s))).atStage st) hs
    (structuralHazard_afterExecute (s := afterMemory (afterWriteback s)) hstart) hdecode
  have hdecode : tickFromDecode ((afterExecute (afterMemory (afterWriteback s))).atStage st) = _ :=
    thenRunning_of_running hstep hs
  exact htick.trans (hdecode.trans (fetch_endTick (u := (beforeFetch s).atStage st') hs))

theorem tick_of_mulStart (hs : s.status = .running) (hlegal : LegalPastDecode s) (hno : firstRaise s = none)
    (hstart : mulStarts s = true) :
    tick s = .next (endTick (fetchAct ((beforeFetchOfMulStart s).atStage .fetch))) := by
  obtain ⟨hwb, hmem, -, -⟩ := firstRaise_eq_none_iff.1 hno
  obtain ⟨st, htick⟩ := tick_past_memory hs hlegal hwb hmem
  have hexec : stepEX ((afterMemory (afterWriteback s)).atStage st) =
      .next ((beforeFetchOfMulStart s).atStage .execute) :=
    stepEX_of_mulStarts (s := (afterMemory (afterWriteback s)).atStage st) hs hstart
  obtain ⟨⟨⟨hocc, hstalled⟩, hop⟩, -⟩ :
      ((s.lE.occ = true ∧ s.lE.stalled = false) ∧ s.lE.op = 0x3#4) ∧ s.lE.busy = false := by
    simpa [mulStarts, Latch.actsInExecute] using hstart
  have hdecode : stepDE ((beforeFetchOfMulStart s).atStage .execute) =
      .next ((beforeFetchOfMulStart s).atStage .execute) := by
    refine stepDE_of_structuralHazard ?_
    simp [structuralHazard, beforeFetchOfMulStart, mulStart, afterMemory, afterWriteback, hocc, hop, hstalled]
  calc
    tick s = tickFromDecode ((beforeFetchOfMulStart s).atStage .execute) :=
      htick.trans (thenRunning_of_running hexec hs)
    _ = .next (endTick (fetchAct ((beforeFetchOfMulStart s).atStage .fetch))) :=
      (thenRunning_of_running hdecode hs).trans (fetch_endTick hs)

end

end Sys2Proof.Machine

/-! The tick against the advance mux of 40_pipeline.md R144, and the tick that faults (60_exceptions.md R210, R211). -/

namespace Sys2Proof.Machine

/-! ### The advance mux (R144) -/

section
variable {s : State}

/-- Before Decode the latch differs from the one at the start of the tick at most in its mark (R122). -/
theorem afterExecute_lD (s : State) :
    ∃ b, (afterExecute (afterMemory (afterWriteback s))).lD = { s.lD with stalled := b } := by
  cases hf : mulFinishes s with
  | false => exact ⟨s.lD.stalled, if_neg (ne_true_of_eq_false hf)⟩
  | true => exact ⟨false, if_pos hf⟩

theorem pending_afterExecute (s : State) (src : Option Reg) :
    pending (afterExecute (afterMemory (afterWriteback s))) src = pendingMid s src := by
  cases src with
  | none => rfl
  | some r => simp only [pending, pendingMid, State.validAt, afterExecute_valid]

/-- Without a MUL start Decode's data hazard is the `d_hz` of R142. -/
theorem decodeHazard_afterExecute (hstart : mulStarts s = false) :
    decodeHazard (afterExecute (afterMemory (afterWriteback s))) = dataStall s := by
  obtain ⟨b, hlD⟩ := afterExecute_lD s
  simp only [decodeHazard, dataHazard, pending_afterExecute, hlD, dataStall, hstart, Bool.not_false, Bool.true_and]
  rfl

theorem issues_of_no_mulStart (hstart : mulStarts s = false) : issues s = (s.lD.occ && !dataStall s) := by
  simp [issues, hstart]

theorem operand_afterExecute (s : State) (src : Option Reg) (old : Word) :
    operand (afterExecute (afterMemory (afterWriteback s))) src old = readMid s src old := by
  cases src <;> rfl

theorem decodedLatch_afterExecute (hstart : mulStarts s = false) :
    decodedLatch (afterExecute (afterMemory (afterWriteback s))) = dPlus s := by
  obtain ⟨b, hlD⟩ := afterExecute_lD s
  simp only [decodedLatch, decodeHazard_afterExecute hstart, operand_afterExecute, hlD, dPlus,
    issues_of_no_mulStart hstart]
  rfl

theorem acquired_eq_validNext (hstart : mulStarts s = false) :
    acquired (if s.lD.occ && !dataStall s then latchDst s.lD else none) (validMid s) = validNext s := by
  rw [validNext, issues_of_no_mulStart hstart]
  cases (if s.lD.occ && !dataStall s then latchDst s.lD else none) <;> rfl

/-- The state before Fetch in the terms of R144, when no MUL starts. -/
theorem beforeFetch_eq (hstart : mulStarts s = false) :
    beforeFetch s =
      { s with
        regs := regsMid s, valid := validNext s, dm := dmNext s, retired := retiredNext s
        lW := mPlus s, lM := ePlus s, lE := dPlus s, lD := dPlus s
        lF := if mulFinishes s then { s.lF with stalled := false } else s.lF } := by
  have hdst : latchDst (afterExecute (afterMemory (afterWriteback s))).lD = latchDst s.lD := by
    obtain ⟨b, hlD⟩ := afterExecute_lD s
    rw [hlD]
    rfl
  simp only [beforeFetch, afterDecode, decodedLatch_afterExecute hstart, decodeHazard_afterExecute hstart, hdst,
    afterExecute_lD_occ, afterExecute_valid]
  rw [show (afterMemory (afterWriteback s)).lD.occ = s.lD.occ from rfl, acquired_eq_validNext hstart]
  rfl

/-- `endTick` in the terms of R144. -/
theorem endTick_eq (s : State) :
    endTick s =
      { s with
        clock := s.clock + 1, status := if s.retired.toNat = s.progLen then .complete else s.status } := by
  unfold endTick
  split <;> rfl

theorem mulFinishes_of_busy (hfsm : FsmInv s) (hb : s.lE.busy = true) : mulFinishes s = true := by
  obtain ⟨hocc, hop, hstalled⟩ := hfsm.busyE hb
  simp [mulFinishes, Latch.actsInExecute, hocc, hop, hstalled, hb]

theorem mulStarts_of_busy (hb : s.lE.busy = true) : mulStarts s = false := by simp [mulStarts, hb]

/-- A tick that starts no MUL leaves Fetch free: the multiply FSM held `L.F` only until it finished (R122, R156). -/
theorem beforeFetch_lF_free (hfsm : FsmInv s) (hstart : mulStarts s = false) :
    (beforeFetch s).lF.busy = false ∧ (beforeFetch s).lF.stalled = false := by
  rw [beforeFetch_eq hstart]
  cases hb : s.lE.busy with
  | true => simp [mulFinishes_of_busy hfsm hb, hfsm.idleF]
  | false =>
    have hnot : mulFinishes s = false := by simp [mulFinishes, hb]
    simp [hnot, hfsm.idleF, hfsm.stalledF, hb]

theorem dPlus_stalled (hstart : mulStarts s = false) : (dPlus s).stalled = dataStall s := by
  cases hd : dataStall s <;> cases hocc : s.lD.occ <;> simp [dPlus, issues, hstart, hd, hocc]

theorem fetchWord_isSome (s : State) : s.fetchWord?.isSome = decide (fetchIndex s.params s.pc < s.progLen) := by
  rw [Bool.eq_iff_iff, State.fetchWord?, isSome_getElem?, decide_eq_true_iff]
  rfl

/-- The Fetch step that nothing holds: a load, and a hand-off unless Decode is stalled (R136 to R139). -/
theorem fetchAct_of_free (hbusy : s.lF.busy = false) (hheld : s.lF.stalled = false) :
    fetchAct s =
      { s with
        lF := s.fetchLatch
        lD := if s.lD.stalled then s.lD else s.fetchLatch
        pc := if !s.lD.stalled && decide (fetchIndex s.params s.pc < s.progLen) then s.pc + s.params.pcStep else s.pc } := by
  rw [← fetchWord_isSome]
  obtain ⟨hF, -⟩ | ⟨-, hD, hact⟩ | ⟨-, hD, hact⟩ := fetchAct_cases s
  · simp [hbusy, hheld] at hF
  · rw [hact, hD]
    rfl
  · rw [hact, hD]
    rfl

theorem tick_eq_mux_of_no_mulStart (hfsm : FsmInv s) (hstart : mulStarts s = false) :
    endTick (fetchAct ((beforeFetch s).atStage .fetch)) = combinationalTick s := by
  obtain ⟨hbusy, hheld⟩ := beforeFetch_lF_free hfsm hstart
  have hstalled : (beforeFetch s).lD.stalled = dataStall s := by rw [beforeFetch_eq hstart, dPlus_stalled hstart]
  rw [fetchAct_of_free (s := (beforeFetch s).atStage .fetch) hbusy hheld, endTick_eq, atStage_lD, hstalled,
    beforeFetch_eq hstart]
  simp only [combinationalTick, hstart, Bool.not_false, Bool.true_and, Bool.false_eq_true, if_false]
  rfl

/-- A MUL start releases nothing, so no register becomes valid but by a Writeback under WB. -/
theorem afterMemory_valid_of_mulStart (hstart : mulStarts s = true) :
    (afterMemory (afterWriteback s)).valid = validNext s := by
  have hissue : issues s = false := by simp [issues, hstart]
  have hnext : validNext s = validMid s := by simp [validNext, hissue]
  rw [hnext]
  cases hc : s.cfgRelease with
  | ex =>
    rw [afterMemory_valid_of_ex hc]
    simp [validMid, releases, hc, eExecutes, hstart]
  | wb => exact if_pos hc

/-- Under a MUL start Fetch, Decode and `pc` are held (R140, R144). -/
theorem tick_eq_mux_of_mulStart (hstart : mulStarts s = true) :
    endTick (fetchAct ((beforeFetchOfMulStart s).atStage .fetch)) = combinationalTick s := by
  obtain ⟨-, hact⟩ | ⟨hfree, -⟩ | ⟨hfree, -⟩ := fetchAct_cases ((beforeFetchOfMulStart s).atStage .fetch)
  · have hvalid : (beforeFetchOfMulStart s).valid = validNext s := afterMemory_valid_of_mulStart hstart
    rw [hact, endTick_eq, combinationalTick, ← hvalid]
    simp only [ePlus, hstart, Bool.not_true, Bool.false_and, Bool.false_eq_true, if_true, if_false]
    rfl
  · simp [beforeFetchOfMulStart, mulStart] at hfree
  · simp [beforeFetchOfMulStart, mulStart] at hfree

end

/-- Settles O41: the four steps before Fetch, and Fetch, field by field against the mux; a MUL start and its absence are
the two sides of the mux. -/
theorem tickIsTheAdvanceMux : Obligations.TickIsTheAdvanceMux := by
  intro s hticks hfsm hlegal hno
  rw [step_of_ticks hticks]
  cases hstart : mulStarts s with
  | true => rw [tick_of_mulStart hticks.1 hlegal hno hstart, tick_eq_mux_of_mulStart hstart]
  | false => rw [tick_of_no_mulStart hticks.1 hlegal hno hstart, tick_eq_mux_of_no_mulStart hfsm hstart]

/-! ### The tick of any state -/

/-- A tick that raises nothing keeps Running or completes, and leaves the fault registers (60_exceptions.md R211). -/
theorem tick_of_no_raise {s : State} (hs : s.status = .running) (hlegal : LegalPastDecode s)
    (hno : firstRaise s = none) : ∃ t, tick s = .next t ∧ t.status ≠ .faulted ∧ t.faultCode = s.faultCode := by
  have hends : ∀ u : State, u.status = .running → u.faultCode = s.faultCode →
      (endTick (fetchAct u)).status ≠ .faulted ∧ (endTick (fetchAct u)).faultCode = s.faultCode := by
    intro u hu hcode
    rw [endTick_eq, fetchAct_frame u]
    refine ⟨?_, (writtenBy_faultCode ..).trans hcode⟩
    simp only [writtenBy_status, hu]
    split <;> simp
  cases hstart : mulStarts s with
  | true => exact ⟨_, tick_of_mulStart hs hlegal hno hstart, hends ((beforeFetchOfMulStart s).atStage .fetch) hs rfl⟩
  | false => exact ⟨_, tick_of_no_mulStart hs hlegal hno hstart, hends ((beforeFetch s).atStage .fetch) hs rfl⟩

/-- The faulting tick: the effects of the steps before the faulting one, and fault entry (R210, R211). -/
theorem tick_of_raise {s : State} {f : Raised} (hs : s.status = .running) (hlegal : LegalPastDecode s)
    (hf : firstRaise s = some f) :
    ∃ u, tick s = .next (takeFault u f) ∧
      (u = s ∨ u = afterWriteback s ∨
        (memRaises s = false ∧
          (u = afterMemory (afterWriteback s) ∨
            (u = afterExecute (afterMemory (afterWriteback s)) ∧ mulStarts s = false)))) := by
  cases hwb : wbRaises s with
  | true => exact ⟨s, tick_of_wbRaises hlegal hwb hf, .inl rfl⟩
  | false =>
    cases hmem : memRaises s with
    | true => exact ⟨_, tick_of_memRaises hs hlegal hwb hmem hf, .inr (.inl rfl)⟩
    | false =>
      cases hex : exRaises s with
      | true => exact ⟨_, tick_of_exRaises hs hlegal hwb hmem hex hf, .inr (.inr ⟨rfl, .inl rfl⟩)⟩
      | false =>
        obtain ⟨-, hstart, -⟩ := firstRaise_of_decode hwb hmem hex hf
        exact ⟨_, tick_of_decodeFault hs hlegal hwb hmem hex hf, .inr (.inr ⟨rfl, .inr ⟨rfl, hstart⟩⟩)⟩

/-- Settles O39: the faulting tick records its first raise, and the tick without one faults nowhere. -/
theorem firstRaiseInStepOrderIsTaken : Obligations.FirstRaiseInStepOrderIsTaken := by
  intro s hticks hlegal
  rw [step_of_ticks hticks]
  cases hf : firstRaise s with
  | none =>
    obtain ⟨t, ht, hstatus, hcode⟩ := tick_of_no_raise hticks.1 hlegal hf
    exact ⟨t, ht, nofun, fun _ => ⟨hstatus, hcode⟩⟩
  | some f =>
    obtain ⟨u, ht, -⟩ := tick_of_raise hticks.1 hlegal hf
    refine ⟨_, ht, ?_, nofun⟩
    rintro _ ⟨⟩
    exact ⟨rfl, rfl, rfl, rfl⟩

/-- A tick that does not fault is the advance mux. -/
theorem step_eq_mux {s t : State} (hticks : Ticks s) (hfsm : FsmInv s) (hlegal : LegalPastDecode s)
    (h : step s = .next t) (hgood : t.status ≠ .faulted) : firstRaise s = none ∧ t = combinationalTick s := by
  cases hf : firstRaise s with
  | none =>
    rw [tickIsTheAdvanceMux s hticks hfsm hlegal hf] at h
    cases h
    exact ⟨rfl, rfl⟩
  | some f =>
    obtain ⟨u, ht, -⟩ := tick_of_raise hticks.1 hlegal hf
    rw [step_of_ticks hticks, ht] at h
    cases h
    exact absurd rfl hgood

end Sys2Proof.Machine

/-! What the latches of the advance mux hold, and the statements about stalls that follow from it (40_pipeline.md R146). -/

namespace Sys2Proof.Machine

/-! ### The latches of the mux -/

@[simp] theorem exAction_record (l : Latch) : (exAction l).record = l.record := by unfold exAction; split <;> rfl

theorem latchDst_congr {l l' : Latch} (h : l.record = l'.record) : latchDst l = latchDst l' := by
  simp only [latchDst, h]

theorem mPlus_record (s : State) : (mPlus s).record = s.lM.record := by unfold mPlus; split <;> rfl

theorem mPlus_op (s : State) : (mPlus s).op = s.lM.op := congrArg Record.op (mPlus_record s)

@[simp] theorem mPlus_acts (s : State) : (mPlus s).acts = s.lM.acts := by unfold mPlus; split <;> rfl

@[simp] theorem latchDst_mPlus (s : State) : latchDst (mPlus s) = latchDst s.lM := latchDst_congr (mPlus_record s)

theorem ePlus_record (s : State) : (ePlus s).record = s.lE.record := by
  unfold ePlus
  split
  · rfl
  · split
    · exact exAction_record _
    · split
      · exact exAction_record _
      · rfl

theorem ePlus_op (s : State) : (ePlus s).op = s.lE.op := congrArg Record.op (ePlus_record s)

@[simp] theorem latchDst_ePlus (s : State) : latchDst (ePlus s) = latchDst s.lE := latchDst_congr (ePlus_record s)

theorem dPlus_record (s : State) : (dPlus s).record = s.lD.record := by unfold dPlus; split <;> rfl

theorem dPlus_op (s : State) : (dPlus s).op = s.lD.op := congrArg Record.op (dPlus_record s)

@[simp] theorem dPlus_occ (s : State) : (dPlus s).occ = s.lD.occ := by unfold dPlus; split <;> rfl

@[simp] theorem dPlus_busy (s : State) : (dPlus s).busy = s.lD.busy := by unfold dPlus; split <;> rfl

@[simp] theorem latchDst_dPlus (s : State) : latchDst (dPlus s) = latchDst s.lD := latchDst_congr (dPlus_record s)

theorem fetchLatch_fresh (s : State) :
    s.fetchLatch.busy = false ∧ s.fetchLatch.stalled = false ∧ s.fetchLatch.a = 0 ∧ s.fetchLatch.b = 0 ∧
      s.fetchLatch.res = 0 ∧ s.fetchLatch.ea = 0 := by
  unfold State.fetchLatch
  split <;> exact ⟨rfl, rfl, rfl, rfl, rfl, rfl⟩

theorem fetchLatch_occ (s : State) : s.fetchLatch.occ = decide (fetchIndex s.params s.pc < s.progLen) := by
  rw [← fetchWord_isSome]
  unfold State.fetchLatch
  split
  · next w h => simp [h, Latch.ofRecord]
  · next h => simp [h, Latch.bubble, Latch.empty]

section
variable {s : State}

theorem eExecutes_eq (s : State) : eExecutes s = (s.lE.actsInExecute && !mulStarts s) := rfl

theorem actsInExecute_of_mulStarts (h : mulStarts s = true) : s.lE.actsInExecute = true ∧ s.lE.op = 0x3#4 ∧
    s.lE.busy = false := by
  simpa [mulStarts, and_assoc] using h

theorem ePlus_of_mulStarts (h : mulStarts s = true) : ePlus s = { s.lE with busy := true } := if_pos h

/-- The multiply FSM is busy after a tick exactly when a MUL started in it (R121, R122). -/
theorem ePlus_busy (hfsm : FsmInv s) : (ePlus s).busy = mulStarts s := by
  cases hstart : mulStarts s with
  | true => rw [ePlus_of_mulStarts hstart]
  | false =>
    cases hb : s.lE.busy with
    | true => simp [ePlus, hstart, mulFinishes_of_busy hfsm hb]
    | false => cases he : eExecutes s <;> simp [ePlus, hstart, mulFinishes, hb, he]

@[simp] theorem ePlus_actsInExecute (s : State) : (ePlus s).actsInExecute = s.lE.actsInExecute := by
  cases hstart : mulStarts s <;> cases hfin : mulFinishes s <;> cases he : eExecutes s <;>
    simp [ePlus, hstart, hfin, he, Latch.actsInExecute]

theorem acts_eq (l : Latch) : l.acts = (l.actsInExecute && !l.busy) := by
  simp only [Latch.acts, Latch.actsInExecute, Bool.and_right_comm]

/-- Memory will act on what Execute completed, and on nothing else (R116, R125). -/
theorem ePlus_acts (hfsm : FsmInv s) : (ePlus s).acts = eExecutes s := by
  rw [acts_eq, ePlus_actsInExecute, ePlus_busy hfsm, eExecutes_eq]

theorem dPlus_actsInExecute (hstart : mulStarts s = false) : (dPlus s).actsInExecute = issues s := by
  rw [Latch.actsInExecute, dPlus_occ, dPlus_stalled hstart, issues_of_no_mulStart hstart]

/-- Execute will act on a MUL that has started, or on what Decode issued. -/
theorem next_actsInExecute (s : State) :
    (combinationalTick s).lE.actsInExecute = (mulStarts s || issues s) := by
  cases hstart : mulStarts s with
  | true => simp [combinationalTick, hstart, (actsInExecute_of_mulStarts hstart).1]
  | false => simp [combinationalTick, hstart, dPlus_actsInExecute hstart]

theorem next_lD_occ (s : State) :
    (combinationalTick s).lD.occ =
      if mulStarts s || dataStall s then s.lD.occ else decide (fetchIndex s.params s.pc < s.progLen) := by
  cases hstart : mulStarts s <;> cases hd : dataStall s <;> simp [combinationalTick, hstart, hd, fetchLatch_occ]

theorem dataStall_of_mulStarts (h : mulStarts s = true) : dataStall s = false := by simp [dataStall, h]

theorem issues_of_mulStarts (h : mulStarts s = true) : issues s = false := by simp [issues, h]

theorem issues_of_dataStall (h : dataStall s = true) : issues s = false := by simp [issues, h]

/-- An issue is of an occupied latch that nothing holds (R143). -/
theorem of_issues (h : issues s = true) : mulStarts s = false ∧ s.lD.occ = true ∧ dataStall s = false := by
  simpa [issues, and_assoc] using h

theorem occ_of_dataStall (h : dataStall s = true) : mulStarts s = false ∧ s.lD.occ = true := by
  obtain ⟨⟨hstart, hocc⟩, -⟩ := Bool.and_eq_true_iff.1 h |>.imp_left Bool.and_eq_true_iff.1
  exact ⟨by simpa using hstart, hocc⟩

theorem next_fsm (hfsm : FsmInv s) : FsmInv (combinationalTick s) := by
  obtain ⟨hbusy, hstalled, -⟩ := fetchLatch_fresh s
  cases hstart : mulStarts s with
  | true =>
    obtain ⟨hacts, hop, -⟩ := actsInExecute_of_mulStarts hstart
    obtain ⟨hocc, hfree⟩ : s.lE.occ = true ∧ s.lE.stalled = false := by simpa [Latch.actsInExecute] using hacts
    constructor <;> simp [combinationalTick, hstart, ePlus_of_mulStarts hstart, hocc, hop, hfree, hfsm.idleF, hfsm.idleD]
  | false =>
    constructor
    · simp [combinationalTick, hstart, hfsm.idleD]
    · simp [combinationalTick, hstart, hfsm.idleD, hstalled]
    · simp [combinationalTick, hstart, hbusy]
    · cases hd : dataStall s <;> simp [combinationalTick, hstart, hd, hbusy, hfsm.idleD]

end

/-! ### The register file and the scoreboard of the mux -/

/-- A write at one register leaves the others. -/
theorem set_getElem_of_ne {α : Type} (v : Vector α Config.nregs) (x : α) {q r : Reg} (h : q ≠ r) :
    (v.set q x)[r] = v[r] := by
  have hne : (q : Nat) ≠ r := fun heq => h (Fin.ext heq)
  simp [hne]

/-- Only Writeback's destination changes in the register file that Decode reads (R108 (a), R114). -/
theorem regsMid_getElem (s : State) (r : Reg) :
    (regsMid s)[r] = if wbWrites s = some r then s.lW.res else s.reg r := by
  unfold regsMid
  cases h : wbWrites s with
  | none => rfl
  | some q =>
    by_cases hq : q = r
    · simp [hq]
    · simpa [hq, State.reg] using set_getElem_of_ne s.regs s.lW.res hq

theorem validMid_getElem (s : State) (r : Reg) :
    (validMid s)[r] = (decide (releases s = some r) || s.validAt r) := by
  unfold validMid
  cases h : releases s with
  | none => simp [State.validAt]
  | some q =>
    by_cases hq : q = r
    · simp [hq]
    · simpa [hq, State.validAt] using set_getElem_of_ne s.valid true hq

theorem validNext_getElem (s : State) (r : Reg) :
    (validNext s)[r] = (!(issues s && decide (latchDst s.lD = some r)) && (validMid s)[r]) := by
  unfold validNext
  cases hissue : issues s with
  | false => simp
  | true =>
    cases hdst : latchDst s.lD with
    | none => simp
    | some q =>
      by_cases hq : q = r
      · simp [hq]
      · simpa [hq] using set_getElem_of_ne (validMid s) false hq

/-- Settles O42: the marks of the mux, and the Execute step of the tick that finishes a MUL. -/
theorem multiplyFreezesFetchAndDecodeForOneTick : Obligations.MultiplyFreezesFetchAndDecodeForOneTick := by
  intro s t hticks hfsm hlegal hstep hgood
  obtain ⟨-, rfl⟩ := step_eq_mux hticks hfsm hlegal hstep hgood
  obtain ⟨-, hfree, -⟩ := fetchLatch_fresh s
  have hbusyE : (combinationalTick s).lE.busy = mulStarts s := by
    cases hstart : mulStarts s with
    | true => simp [combinationalTick, hstart, ePlus_of_mulStarts hstart]
    | false => simp [combinationalTick, hstart, hfsm.idleD]
  refine ⟨(next_fsm hfsm).stalledF.trans hbusyE, hbusyE, ?marks, ?frozen, ?finish⟩
  case marks =>
    cases hstart : mulStarts s <;> cases hd : dataStall s <;>
      simp [combinationalTick, hstart, hd, hfree, dPlus_stalled]
  case frozen =>
    intro hstart
    exact ⟨dataStall_of_mulStarts hstart, by simp [combinationalTick, hstart]⟩
  case finish =>
    intro hb
    obtain ⟨-, hop, -⟩ := hfsm.busyE hb
    have hstart : mulStarts s = false := mulStarts_of_busy hb
    refine ⟨hstart, (ePlus_op s).trans hop, (ePlus_busy hfsm).trans hstart, ?_⟩
    simp [combinationalTick, ePlus, hstart, mulFinishes_of_busy hfsm hb, exAction, hop]

/-- Settles O45: an issue reads `regsMid`, the register file as Writeback left it. -/
theorem issueReadsTheRegisterFileAfterWriteback : Obligations.IssueReadsTheRegisterFileAfterWriteback := by
  intro s t i hticks hfsm hlegal hstep hgood hissue hi
  obtain ⟨-, rfl⟩ := step_eq_mux hticks hfsm hlegal hstep hgood
  obtain ⟨hstart, -, -⟩ := of_issues hissue
  have hlE : (combinationalTick s).lE =
      { s.lD with stalled := false, a := readMid s (src1Of i) s.lD.a, b := readMid s (src2Of i) s.lD.b } := by
    simp [combinationalTick, hstart, dPlus, hissue, latchSrcs_of_instr hi]
  rw [hlE]
  constructor <;> intro r hr <;> simp only [hr, readMid, regsMid_getElem, wbWrites_eq_some]

end Sys2Proof.Machine

/-! The invariant of every reachable state (10_state.md R26; 40_pipeline.md R156, R157, R159): it holds at reset, and every
clock edge keeps it. -/

namespace Sys2Proof.Machine

/-! ### The fetch index (10_state.md R26) -/

/-- The tick hands a record on and advances `pc` (40_pipeline.md R139). -/
def advances (s : State) : Bool :=
  !mulStarts s && !dataStall s && decide (fetchIndex s.params s.pc < s.progLen)

section
variable {s : State}

theorem next_pc (s : State) :
    (combinationalTick s).pc = if advances s then s.pc + s.params.pcStep else s.pc := rfl

theorem pc_advance (hpc : PcInRange s) :
    s.pc + s.params.pcStep =
      s.params.pcBase + s.params.pcStep * BitVec.ofNat 32 (fetchIndex s.params s.pc + 1) := by
  conv_lhs => rw [hpc.2]
  rw [BitVec.ofNat_add, BitVec.mul_add, BitVec.add_assoc]
  simp

/-- The fetch index counts the records handed on. -/
theorem next_fetchIndex (hc : configOk s.params s.progLen = true) (hpc : PcInRange s) :
    fetchIndex s.params (combinationalTick s).pc = fetchIndex s.params s.pc + (advances s).toNat := by
  rw [next_pc]
  cases ha : advances s with
  | false => rfl
  | true =>
    have hlt : fetchIndex s.params s.pc < s.progLen := by
      simpa using (Bool.and_eq_true_iff.1 ha).2
    rw [if_pos rfl, pc_advance hpc, fetchIndex_of_address hc hlt]
    rfl

theorem next_pcInRange (hc : configOk s.params s.progLen = true) (hpc : PcInRange s) :
    PcInRange (combinationalTick s) := by
  have hindex : fetchIndex (combinationalTick s).params (combinationalTick s).pc =
      fetchIndex s.params s.pc + (advances s).toNat := next_fetchIndex hc hpc
  rw [PcInRange, hindex]
  cases ha : advances s with
  | false =>
    rw [next_pc, ha]
    exact hpc
  | true =>
    have hlt : fetchIndex s.params s.pc < s.progLen := by
      simpa using (Bool.and_eq_true_iff.1 ha).2
    rw [next_pc, ha]
    exact ⟨hlt, pc_advance hpc⟩

/-! ### Legal opcodes and data memory -/

theorem next_legal (hfsm : FsmInv s) (hlegal : LegalPastDecode s) (hno : firstRaise s = none) :
    LegalPastDecode (combinationalTick s) := by
  obtain ⟨-, -, -, hquiet⟩ := firstRaise_eq_none_iff.1 hno
  have hE : s.lE.actsInExecute = true → (ePlus s).op.toNat < 13 := fun h => (ePlus_op s).symm ▸ hlegal.legalE h
  constructor
  · intro hacts
    cases hstart : mulStarts s with
    | true => simpa [combinationalTick, hstart] using hE (actsInExecute_of_mulStarts hstart).1
    | false =>
      have hissue : issues s = true := by simpa [next_actsInExecute, hstart] using hacts
      have hocc : s.lD.occ = true := by
        rw [issues_of_no_mulStart hstart] at hissue
        exact (Bool.and_eq_true_iff.1 hissue).1
      obtain ⟨i, hi, -⟩ := instr_of_decodeFault_none (hquiet (by simp [decodeProcesses, hocc, hstart]))
      have hop : i.opcode = s.lD.op := Record.opcode_of_instr hi
      simpa [combinationalTick, hstart, dPlus_op, ← hop] using i.opcode_lt
  · intro hacts
    rw [show (combinationalTick s).lM = ePlus s from rfl, ePlus_acts hfsm] at hacts
    exact hE (Bool.and_eq_true_iff.1 hacts).1
  · intro hacts
    rw [show (combinationalTick s).lW = mPlus s from rfl, mPlus_acts] at hacts
    exact (mPlus_op s).symm ▸ hlegal.legalM hacts

theorem dmNext_wf (hwf : Memory.wf s.params.dmSize s.dm = true) (hmem : memRaises s = false) :
    Memory.wf s.params.dmSize (dmNext s) = true := by
  unfold dmNext
  split
  · next h =>
    obtain ⟨hacts, hop⟩ : s.lM.acts = true ∧ s.lM.op = 0x8#4 := by simpa using h
    have hin : inBounds s.params.dmSize s.lM.ea = true := by
      simpa [memRaises, accessesMemory, hacts, hop] using hmem
    exact Memory.wf_write hwf (inBounds_cellOf hin).1 _
  · exact hwf

theorem next_freshD (hfresh : DecodeLatchFresh s) : DecodeLatchFresh (combinationalTick s) := by
  obtain ⟨-, -, hfetch⟩ := fetchLatch_fresh s
  cases hstart : mulStarts s with
  | true => simpa [DecodeLatchFresh, combinationalTick, hstart] using hfresh
  | false =>
    cases hd : dataStall s with
    | true => simpa [DecodeLatchFresh, combinationalTick, hstart, hd, dPlus, issues] using hfresh
    | false => simpa [DecodeLatchFresh, combinationalTick, hstart, hd] using hfetch

/-! ### The driver and the counts (R151, R152, R159) -/

/-- R9 bounds the program by the address space, so no count of instructions wraps. -/
theorem progLen_lt_of_configOk {p : Params} {n : Nat} (hc : configOk p n = true) : n < 4294967296 := by
  obtain ⟨hp, hlen⟩ := configOk_iff.1 hc
  have hstep : 0 < p.pcStep.toNat := by
    have hne : p.pcStep ≠ 0 := by simpa using (Bool.and_eq_true_iff.1 hp).2
    exact Nat.pos_of_ne_zero fun h => hne (BitVec.eq_of_toNat_eq h)
  have hle : n ≤ p.pcStep.toNat * n := Nat.le_mul_of_pos_left n hstep
  have hend : p.pcBase.toNat + p.pcStep.toNat * n < 4294967296 := by simpa [programLengthOk] using hlen
  omega

theorem retiredNext_toNat (hc : configOk s.params s.progLen = true) (hlt : s.retired.toNat < s.progLen) :
    (retiredNext s).toNat = s.retired.toNat + s.lW.acts.toNat := by
  have hbound := progLen_lt_of_configOk hc
  unfold retiredNext
  split
  · next h =>
    rw [h, count_toNat_add_one _ (by omega)]
    rfl
  · next h => simp [h]

theorem next_status (s : State) :
    (combinationalTick s).status =
      if (combinationalTick s).retired.toNat = (combinationalTick s).progLen then .complete else s.status := rfl

theorem next_good (hs : s.status = .running) : (combinationalTick s).status ≠ .faulted := by
  rw [next_status, hs]
  split <;> simp

theorem next_driver (hc : configOk s.params s.progLen = true) (hs : s.status = .running) (hdriver : DriverInv s) :
    DriverInv (combinationalTick s) := by
  have hlt := hdriver.runningLt hs
  have hcount := retiredNext_toNat hc hlt
  have hone := Bool.toNat_le s.lW.acts
  have hle : (combinationalTick s).retired.toNat ≤ (combinationalTick s).progLen := by
    show (retiredNext s).toNat ≤ s.progLen
    omega
  have hcode : s.faultCode = .none := by
    by_contra h
    simp [hdriver.faultedIff.2 h] at hs
  refine ⟨hle, fun hrun => ?_, fun hdone => ?_, ?_, hdriver.noDoubleRelease⟩
  · refine Nat.lt_of_le_of_ne hle fun heq => ?_
    rw [next_status, if_pos heq] at hrun
    cases hrun
  · by_contra hne
    rw [next_status, if_neg hne, hs] at hdone
    cases hdone
  · rw [next_status, hs, show (combinationalTick s).faultCode = .none from hcode]
    split <;> simp

/-- No instruction is lost or duplicated: each latch hands its one on, and Fetch adds one as `pc` advances. -/
theorem next_inFlight (hfsm : FsmInv s) :
    inFlight (combinationalTick s) + s.lW.acts.toNat = inFlight s + (advances s).toNat := by
  have hM : (combinationalTick s).lM.acts = eExecutes s := ePlus_acts hfsm
  have hW : (combinationalTick s).lW.acts = s.lM.acts := mPlus_acts s
  simp only [inFlight, hM, hW, next_actsInExecute, next_lD_occ, eExecutes_eq]
  cases hstart : mulStarts s with
  | true => simp [advances, hstart, (actsInExecute_of_mulStarts hstart).1, issues_of_mulStarts hstart]
  | false =>
    cases hd : dataStall s with
    | true =>
      simp [advances, hstart, hd, issues_of_dataStall hd]
    | false =>
      simp [advances, hstart, hd, issues_of_no_mulStart hstart]
      omega

theorem next_fetchedOnce (hinv : Inv s) (hs : s.status = .running) : FetchedOnce (combinationalTick s) := by
  have hcount : s.retired.toNat + inFlight s = fetchIndex s.params s.pc := hinv.fetchedOnce (by simp [hs])
  have hflow := next_inFlight hinv.fsm
  have hretired := retiredNext_toNat hinv.config (hinv.driver.runningLt hs)
  show (retiredNext s).toNat + inFlight (combinationalTick s) = fetchIndex s.params (combinationalTick s).pc
  rw [next_fetchIndex hinv.config hinv.pcInRange]
  omega

/-! ### Scoreboard conservation (R157) -/

theorem holdsWriter_eq_zero_or_one (acts : Bool) (l : Latch) (r : Reg) :
    (holdsWriter acts l r = 0 ∧ ¬(acts = true ∧ latchDst l = some r)) ∨
      (holdsWriter acts l r = 1 ∧ acts = true ∧ latchDst l = some r) := by
  by_cases h : acts = true ∧ latchDst l = some r
  · exact .inr ⟨by simp [holdsWriter, h], h⟩
  · exact .inl ⟨by simpa [holdsWriter] using h, h⟩

theorem releases_eq_some_of_ex (hex : s.cfgRelease = .ex) (r : Reg) :
    releases s = some r ↔ eExecutes s = true ∧ latchDst s.lE = some r := by simp [releases, hex]

theorem releases_eq_some_of_wb (hwb : s.cfgRelease = .wb) (r : Reg) :
    releases s = some r ↔ s.lW.acts = true ∧ latchDst s.lW = some r := by simp [releases, hwb, wbWrites]

/-- Under EX the writer in Execute is the only one pending, and it releases in its one completing tick. -/
theorem validMid_of_ex (hex : s.cfgRelease = .ex) (hsb : ScoreboardConserved s) (hstart : mulStarts s = false)
    (r : Reg) : (validMid s)[r] = true := by
  have hr : holdsWriter s.lE.actsInExecute s.lE r = if s.validAt r then 0 else 1 := by
    simpa [pendingWriters, hex] using hsb r
  rw [validMid_getElem, Bool.or_eq_true_iff, decide_eq_true_iff, releases_eq_some_of_ex hex, eExecutes_eq, hstart]
  obtain ⟨hzero, -⟩ | ⟨-, hwriter⟩ := holdsWriter_eq_zero_or_one s.lE.actsInExecute s.lE r
  · right
    by_contra h
    simp [hzero, h] at hr
  · simpa using Or.inl hwriter

/-- Under WB what Writeback does not release stays pending in Execute or Memory. -/
theorem pending_of_wb (hwb : s.cfgRelease = .wb) (hsb : ScoreboardConserved s) (r : Reg) :
    holdsWriter s.lE.actsInExecute s.lE r + holdsWriter s.lM.acts s.lM r = if (validMid s)[r] then 0 else 1 := by
  have hr : holdsWriter s.lE.actsInExecute s.lE r + holdsWriter s.lM.acts s.lM r + holdsWriter s.lW.acts s.lW r =
      if s.validAt r then 0 else 1 := by simpa [pendingWriters, hwb] using hsb r
  rw [validMid_getElem]
  obtain ⟨hzero, hnot⟩ | ⟨hone, hwriter⟩ := holdsWriter_eq_zero_or_one s.lW.acts s.lW r
  · have hkept : decide (releases s = some r) = false := by simpa [releases_eq_some_of_wb hwb] using hnot
    simpa [hkept, hzero] using hr
  · have hfreed : decide (releases s = some r) = true := by simpa [releases_eq_some_of_wb hwb] using hwriter
    cases hv : s.validAt r <;> simp [hv, hfreed] at hr ⊢ <;> omega

/-- An issue finds its sources valid, and under WB its destination (R127, R129). -/
theorem not_pendingMid_of_issues (hissue : issues s = true) :
    pendingMid s (latchSrcs s.lD).1 = false ∧ pendingMid s (latchSrcs s.lD).2 = false ∧
      (s.cfgRelease = .wb → pendingMid s (latchDst s.lD) = false) := by
  obtain ⟨hstart, hocc, hno⟩ := of_issues hissue
  simpa [dataStall, hstart, hocc, and_assoc] using hno

theorem holdsWriter_congr {l l' : Latch} (acts : Bool) (h : latchDst l = latchDst l') (r : Reg) :
    holdsWriter acts l r = holdsWriter acts l' r := by simp only [holdsWriter, h]

/-- What Execute will hold: a MUL that has started, or the writer Decode issued. -/
theorem next_holdsWriter_lE (s : State) (r : Reg) :
    holdsWriter (combinationalTick s).lE.actsInExecute (combinationalTick s).lE r =
      if mulStarts s then holdsWriter s.lE.actsInExecute s.lE r else holdsWriter (issues s) s.lD r := by
  rw [next_actsInExecute]
  cases hstart : mulStarts s with
  | true =>
    rw [(actsInExecute_of_mulStarts hstart).1]
    exact holdsWriter_congr _ (by simp [combinationalTick, hstart]) r
  | false => exact holdsWriter_congr _ (by simp [combinationalTick, hstart]) r

theorem next_pendingWriters_of_ex (hex : s.cfgRelease = .ex) (r : Reg) :
    pendingWriters (combinationalTick s) r =
      if mulStarts s then holdsWriter s.lE.actsInExecute s.lE r else holdsWriter (issues s) s.lD r := by
  rw [← next_holdsWriter_lE, pendingWriters, show (combinationalTick s).cfgRelease = .ex from hex]

theorem next_pendingWriters_of_wb (hfsm : FsmInv s) (hwb : s.cfgRelease = .wb) (r : Reg) :
    pendingWriters (combinationalTick s) r =
      (if mulStarts s then holdsWriter s.lE.actsInExecute s.lE r else holdsWriter (issues s) s.lD r) +
        holdsWriter (eExecutes s) s.lE r + holdsWriter s.lM.acts s.lM r := by
  have hM : holdsWriter (combinationalTick s).lM.acts (combinationalTick s).lM r = holdsWriter (eExecutes s) s.lE r := by
    rw [show (combinationalTick s).lM = ePlus s from rfl, ePlus_acts hfsm]
    exact holdsWriter_congr _ (latchDst_ePlus s) r
  have hW : holdsWriter (combinationalTick s).lW.acts (combinationalTick s).lW r = holdsWriter s.lM.acts s.lM r := by
    rw [show (combinationalTick s).lW = mPlus s from rfl, mPlus_acts]
    exact holdsWriter_congr _ (latchDst_mPlus s) r
  rw [← next_holdsWriter_lE, ← hM, ← hW, pendingWriters, show (combinationalTick s).cfgRelease = .wb from hwb]

/-- A register that was free in this tick is pending after it iff an issue acquired it (R112). -/
theorem next_validAt_of_free {r : Reg} (hfree : (validMid s)[r] = true) :
    (if (combinationalTick s).validAt r then 0 else 1) = holdsWriter (issues s) s.lD r := by
  rw [show (combinationalTick s).validAt r = (validNext s)[r] from rfl, validNext_getElem, hfree, holdsWriter]
  cases issues s <;> by_cases h : latchDst s.lD = some r <;> simp [h]

/-- A register that no issue acquires stays as the releases left it. -/
theorem next_validAt_of_no_issue {r : Reg} (hno : holdsWriter (issues s) s.lD r = 0) :
    (combinationalTick s).validAt r = (validMid s)[r] := by
  have hnot : (issues s && decide (latchDst s.lD = some r)) = false := by simpa [holdsWriter] using hno
  rw [show (combinationalTick s).validAt r = (validNext s)[r] from rfl, validNext_getElem, hnot, Bool.not_false,
    Bool.true_and]

theorem holdsWriter_false (l : Latch) (r : Reg) : holdsWriter false l r = 0 := rfl

theorem next_scoreboard (hfsm : FsmInv s) (hsb : ScoreboardConserved s) :
    ScoreboardConserved (combinationalTick s) := by
  intro r
  cases hc : s.cfgRelease with
  | ex =>
    rw [next_pendingWriters_of_ex hc]
    cases hstart : mulStarts s with
    | true =>
      have hkept : releases s = none := by simp [releases, hc, eExecutes, hstart]
      have hnow : holdsWriter s.lE.actsInExecute s.lE r = if s.validAt r then 0 else 1 := by
        simpa [pendingWriters, hc] using hsb r
      rw [next_validAt_of_no_issue (by rw [issues_of_mulStarts hstart, holdsWriter_false]), validMid_getElem, hkept]
      simpa using hnow
    | false => exact (next_validAt_of_free (validMid_of_ex hc hsb hstart r)).symm
  | wb =>
    rw [next_pendingWriters_of_wb hfsm hc, eExecutes_eq]
    have hpending := pending_of_wb hc hsb r
    cases hstart : mulStarts s with
    | true =>
      rw [next_validAt_of_no_issue (by rw [issues_of_mulStarts hstart, holdsWriter_false]), ← hpending]
      simp [holdsWriter_false]
    | false =>
      obtain ⟨hnone, -⟩ | ⟨hone, hissue, hdst⟩ := holdsWriter_eq_zero_or_one (issues s) s.lD r
      · rw [next_validAt_of_no_issue hnone, ← hpending]
        simp [hnone]
      · obtain ⟨-, -, hvalid⟩ := not_pendingMid_of_issues hissue
        have hfree : (validMid s)[r] = true := by simpa [hdst, pendingMid] using hvalid hc
        rw [next_validAt_of_free hfree]
        rw [hfree] at hpending
        simp at hpending ⊢
        omega

/-! ### The tick that raises nothing keeps the invariant -/

theorem next_inv (hinv : Inv s) (hs : s.status = .running) (hno : firstRaise s = none) :
    Inv (combinationalTick s) := by
  obtain ⟨-, hmem, -, -⟩ := firstRaise_eq_none_iff.1 hno
  exact
    { config := hinv.config
      memory := dmNext_wf hinv.memory hmem
      pcInRange := next_pcInRange hinv.config hinv.pcInRange
      fsm := next_fsm hinv.fsm
      legal := next_legal hinv.fsm hinv.legal hno
      freshD := next_freshD hinv.freshD
      driver := next_driver hinv.config hs hinv.driver
      scoreboard := fun _ => next_scoreboard hinv.fsm (hinv.scoreboard (by simp [hs]))
      fetchedOnce := fun _ => next_fetchedOnce hinv hs
      atRest := rfl }

/-! ### Fault entry keeps the invariant -/

/-- The clauses of the invariant that hold between the stage steps of a tick too; fault entry needs no others. -/
structure InvWithinTick (s : State) : Prop where
  config : configOk s.params s.progLen = true
  memory : Memory.wf s.params.dmSize s.dm = true
  pcInRange : PcInRange s
  fsm : FsmInv s
  legal : LegalPastDecode s
  freshD : DecodeLatchFresh s
  retiredLe : s.retired.toNat ≤ s.progLen

theorem Inv.withinTick (h : Inv s) : InvWithinTick s :=
  ⟨h.config, h.memory, h.pcInRange, h.fsm, h.legal, h.freshD, h.driver.retiredLe⟩

theorem afterWriteback_withinTick (h : InvWithinTick s) (hlt : s.retired.toNat < s.progLen) :
    InvWithinTick (afterWriteback s) := by
  have hcount := retiredNext_toNat h.config hlt
  have hone := Bool.toNat_le s.lW.acts
  have hle : (retiredNext s).toNat ≤ s.progLen := by omega
  exact ⟨h.config, h.memory, h.pcInRange, ⟨h.fsm.busyE, h.fsm.stalledF, h.fsm.idleF, h.fsm.idleD⟩,
    ⟨h.legal.legalE, h.legal.legalM, h.legal.legalW⟩, h.freshD, hle⟩

theorem afterMemory_withinTick (h : InvWithinTick s) (hmem : memRaises s = false) :
    InvWithinTick (afterMemory s) := by
  have hM : (mPlus s).acts = true → (mPlus s).op.toNat < 13 := fun hacts =>
    (mPlus_op s).symm ▸ h.legal.legalM (mPlus_acts s ▸ hacts)
  exact ⟨h.config, dmNext_wf h.memory hmem, h.pcInRange, ⟨h.fsm.busyE, h.fsm.stalledF, h.fsm.idleF, h.fsm.idleD⟩,
    ⟨h.legal.legalE, hM, hM⟩, h.freshD, h.retiredLe⟩

theorem afterExecute_fsm (hfsm : FsmInv s) (hstart : mulStarts s = false) : FsmInv (afterExecute s) := by
  have hidle : (afterExecute s).lE.busy = false := (ePlus_busy hfsm).trans hstart
  refine ⟨fun hb => by simp [hidle] at hb, ?_, ?_, ?_⟩
  · rw [hidle]
    cases hb : s.lE.busy with
    | true => simp [afterExecute, mulFinishes_of_busy hfsm hb]
    | false => simp [afterExecute, mulFinishes, hb, hfsm.stalledF]
  · cases hf : mulFinishes s <;> simp [afterExecute, hf, hfsm.idleF]
  · cases hf : mulFinishes s <;> simp [afterExecute, hf, hfsm.idleD]

theorem afterExecute_withinTick (h : InvWithinTick s) (hstart : mulStarts s = false) :
    InvWithinTick (afterExecute s) := by
  have hE : s.lE.actsInExecute = true → (ePlus s).op.toNat < 13 := fun hacts => (ePlus_op s).symm ▸ h.legal.legalE hacts
  have hM : (ePlus s).acts = true → (ePlus s).op.toNat < 13 := by
    rw [ePlus_acts h.fsm]
    exact fun hacts => hE (Bool.and_eq_true_iff.1 hacts).1
  have hfresh : DecodeLatchFresh (afterExecute s) := by
    cases hf : mulFinishes s <;> simpa [DecodeLatchFresh, afterExecute, hf] using h.freshD
  exact ⟨h.config, h.memory, h.pcInRange, afterExecute_fsm h.fsm hstart,
    ⟨fun hacts => hE (ePlus_actsInExecute s ▸ hacts), hM, h.legal.legalW⟩, hfresh, h.retiredLe⟩

theorem takeFault_inv {f : Raised} (h : InvWithinTick s) (hf : f.code ≠ .none ∧ f.code ≠ .sbInvariant) :
    Inv (takeFault s f) where
  config := h.config
  memory := h.memory
  pcInRange := h.pcInRange
  fsm := ⟨h.fsm.busyE, h.fsm.stalledF, h.fsm.idleF, h.fsm.idleD⟩
  legal := ⟨h.legal.legalE, h.legal.legalM, h.legal.legalW⟩
  freshD := h.freshD
  driver := ⟨h.retiredLe, nofun, nofun, by simpa using hf.1, hf.2⟩
  scoreboard := fun hno => absurd rfl hno
  fetchedOnce := fun hno => absurd rfl hno
  atRest := rfl

/-- Under EX an executing writer is itself the pending writer of its register, so the register is not valid (R157). -/
theorem exRaises_of_conserved (hsb : ScoreboardConserved s) : exRaises s = false := by
  by_contra h
  obtain ⟨hex, hdouble⟩ :
      s.cfgRelease = .ex ∧ doubleRelease s (if eExecutes s then latchDst s.lE else none) = true := by
    simpa [exRaises] using h
  obtain ⟨r, hr, hvalid⟩ := doubleRelease_iff.1 hdouble
  obtain ⟨hexec, hdst⟩ : eExecutes s = true ∧ latchDst s.lE = some r := by simpa using hr
  have hacts : s.lE.actsInExecute = true := (Bool.and_eq_true_iff.1 hexec).1
  simpa [pendingWriters, hex, hvalid, holdsWriter, hacts, hdst] using hsb r

/-- Under the invariant the causes are BOUNDS, MALFORMED and UNIMPL (R157, R205). -/
theorem firstRaise_code {f : Raised} (hsb : ScoreboardConserved s) (hf : firstRaise s = some f) :
    f.code ≠ .none ∧ f.code ≠ .sbInvariant := by
  have hwb := wbRaises_of_conserved hsb
  have hex := exRaises_of_conserved hsb
  cases hmem : memRaises s with
  | true =>
    rw [firstRaise_of_memRaises hwb hmem hf]
    exact ⟨nofun, nofun⟩
  | false =>
    obtain ⟨-, -, hfault⟩ := firstRaise_of_decode hwb hmem hex hf
    unfold decodeFault at hfault
    split at hfault
    · cases hfault
      exact ⟨nofun, nofun⟩
    · split at hfault
      · cases hfault
        exact ⟨nofun, nofun⟩
      · cases hfault

theorem tick_of_raise_inv {f : Raised} {t : State} (hinv : Inv s) (hs : s.status = .running)
    (hf : firstRaise s = some f) (h : tick s = .next t) : Inv t := by
  obtain ⟨u, htick, hu⟩ := tick_of_raise hs hinv.legal hf
  obtain rfl : takeFault u f = t := by simpa [htick] using h
  have hwithin : InvWithinTick u := by
    have hwb := afterWriteback_withinTick hinv.withinTick (hinv.driver.runningLt hs)
    obtain rfl | rfl | ⟨hmem, rfl | ⟨rfl, hstart⟩⟩ := hu
    · exact hinv.withinTick
    · exact hwb
    · exact afterMemory_withinTick hwb hmem
    · exact afterExecute_withinTick (afterMemory_withinTick hwb hmem) hstart
  exact takeFault_inv hwithin (firstRaise_code (hinv.scoreboard (by simp [hs])) hf)

end

/-! ### Reset, and every clock edge -/

section
variable {prog : List RecordWord} {release : Release} {unimpl : Unimpl} {params : Params}

theorem resetWith_status :
    (State.resetWith prog release unimpl params).status = if prog.length = 0 then .complete else .running := rfl

/-- `status` is Complete after reset iff there is nothing to run (40_pipeline.md R151). -/
theorem resetWith_driver : DriverInv (State.resetWith prog release unimpl params) := by
  refine ⟨Nat.zero_le _, ?_, ?_, ?_, nofun⟩ <;> rw [resetWith_status] <;> split
  all_goals next h => simp [State.resetWith, State.progLen, h, Nat.pos_iff_ne_zero]

theorem resetWith_validAt (r : Reg) : (State.resetWith prog release unimpl params).validAt r = true := by
  simp [State.validAt, State.resetWith]

theorem resetWith_fetchIndex (hc : configOk params prog.length = true) :
    fetchIndex (State.resetWith prog release unimpl params).params (State.resetWith prog release unimpl params).pc =
      0 := by
  have hbase : fetchIndex params params.pcBase = 0 := by simpa using fetchIndex_of_address hc (Nat.zero_le _)
  exact hbase

theorem resetWith_inv (hc : configOk params prog.length = true) :
    Inv (State.resetWith prog release unimpl params) where
  config := hc
  memory := rfl
  pcInRange := by
    rw [PcInRange, resetWith_fetchIndex hc]
    exact ⟨Nat.zero_le _, by simp [State.resetWith]⟩
  fsm := ⟨nofun, rfl, rfl, rfl⟩
  legal := ⟨nofun, nofun, nofun⟩
  freshD := ⟨rfl, rfl, rfl, rfl⟩
  driver := resetWith_driver
  scoreboard := fun _ r => by
    rw [resetWith_validAt]
    cases release <;> rfl
  fetchedOnce := fun _ => (resetWith_fetchIndex hc).symm
  atRest := rfl

end

theorem inv_setRst {s : State} (h : Inv s) (b : Bool) : Inv { s with rst := b } :=
  ⟨h.config, h.memory, h.pcInRange, ⟨h.fsm.busyE, h.fsm.stalledF, h.fsm.idleF, h.fsm.idleD⟩,
    ⟨h.legal.legalE, h.legal.legalM, h.legal.legalW⟩, h.freshD,
    ⟨h.driver.retiredLe, h.driver.runningLt, h.driver.completeEq, h.driver.faultedIff, h.driver.noDoubleRelease⟩,
    h.scoreboard, h.fetchedOnce, h.atRest⟩

/-- Settles O46: at reset nothing is in flight, every register is valid, and the fetch index is 0. -/
theorem invariantHoldsAtReset : Obligations.InvariantHoldsAtReset :=
  ⟨resetWith_inv (by decide), fun _ _ _ _ => resetWith_inv⟩

/-- Settles O47: a reset edge gives the reset state, a tick is the advance mux or fault entry, and any other edge changes
nothing. -/
theorem everyStepKeepsTheInvariant : Obligations.EveryStepKeepsTheInvariant := by
  intro s t hinv hstep
  obtain ⟨hc, ⟨-, rfl⟩ | ⟨hticks, htick⟩ | ⟨-, -, rfl⟩⟩ := step_next_cases hstep
  · exact inv_setRst (resetWith_inv hc) s.rst
  · cases hf : firstRaise s with
    | some f => exact tick_of_raise_inv hinv hticks.1 hf htick
    | none =>
      rw [tickIsTheAdvanceMux s hticks hinv.fsm hinv.legal hf] at hstep
      cases hstep
      exact next_inv hinv hticks.1 hf
  · exact hinv

end Sys2Proof.Machine

/-! What the invariant says of a run: its steps never stop, what Complete means (40_pipeline.md R157, R159), and how long a
data stall lasts (R158; 70_reset_and_hazards.md R244). -/

namespace Sys2Proof.Machine

/-- Settles O48: the configuration is not refused, and a tick of legal latches answers. -/
theorem invariantStateAlwaysSteps : Obligations.InvariantStateAlwaysSteps := by
  intro s hinv
  cases hrst : s.rst with
  | true => exact ⟨_, step_of_reset hinv.config hrst⟩
  | false =>
    cases hs : s.status with
    | running =>
      obtain ⟨t, ht, -⟩ := firstRaiseInStepOrderIsTaken s ⟨hs, hrst, hinv.config⟩ hinv.legal
      exact ⟨t, ht⟩
    | complete => exact ⟨s, stoppedMachineChangesNothing s hinv.config hrst (.inl hs)⟩
    | faulted => exact ⟨s, stoppedMachineChangesNothing s hinv.config hrst (.inr hs)⟩

section
variable {s t : State}

theorem ticks_of_step (hticks : Ticks s) (h : step s = .next t) (hrun : t.status = .running) : Ticks t := by
  obtain ⟨-, hrst, hc⟩ := hticks
  obtain ⟨hprog, -, -, hparams, hrst'⟩ := inputs_eq_iff.1 (step_inputs h)
  exact ⟨hrun, hrst'.trans hrst, by rw [hparams, State.progLen, hprog]; exact hc⟩

/-! ### Nothing in flight -/

theorem inFlight_eq_zero_iff (s : State) :
    inFlight s = 0 ↔ s.lD.occ = false ∧ s.lE.actsInExecute = false ∧ s.lM.acts = false ∧ s.lW.acts = false := by
  simp [inFlight, Bool.toNat_eq_zero, and_assoc]

/-- A register nobody in flight will write is valid (R157). -/
theorem validAt_of_idle (hsb : ScoreboardConserved s) (hE : s.lE.actsInExecute = false) (hM : s.lM.acts = false)
    (hW : s.lW.acts = false) (r : Reg) : s.validAt r = true := by
  have hnone : pendingWriters s r = 0 := by
    unfold pendingWriters
    split <;> simp [hE, hM, hW, holdsWriter_false]
  have hr := hsb r
  by_contra h
  simp [hnone, h] at hr

/-- Settles O49: all N have retired, so the N or fewer fetched ones leave nothing in flight, nor any writer. -/
theorem completionLeavesNothingPending : Obligations.CompletionLeavesNothingPending := by
  intro s hinv hdone
  have hgood : s.status ≠ .faulted := by simp [hdone]
  have hretired := hinv.driver.completeEq hdone
  have hfetched : s.retired.toNat + inFlight s = fetchIndex s.params s.pc := hinv.fetchedOnce hgood
  have hle : fetchIndex s.params s.pc ≤ s.progLen := hinv.pcInRange.1
  have hempty : inFlight s = 0 := by omega
  obtain ⟨-, hE, hM, hW⟩ := (inFlight_eq_zero_iff s).1 hempty
  exact ⟨hretired, by omega, hempty, validAt_of_idle (hinv.scoreboard hgood) hE hM hW⟩

/-! ### Data stalls -/

/-- A data stall waits for a register that this tick's releases leave pending (R142). -/
theorem dataStall_of_validMid (h : ∀ r : Reg, (validMid s)[r] = true) : dataStall s = false := by
  have hfree : ∀ src, pendingMid s src = false := by
    intro src
    cases src with
    | none => rfl
    | some r => simpa [pendingMid] using h r
  simp [dataStall, hfree]

theorem dataStall_of_ex (hsb : ScoreboardConserved s) (hex : s.cfgRelease = .ex) : dataStall s = false := by
  cases hstart : mulStarts s with
  | true => exact dataStall_of_mulStarts hstart
  | false => exact dataStall_of_validMid (validMid_of_ex hex hsb hstart)

/-- Settles O43: under EX the one writer in flight releases in the tick that could stall on it. -/
theorem noDataStallUnderEarlyRelease : Obligations.NoDataStallUnderEarlyRelease := by
  intro s t hinv hticks hex hstep hgood
  have hnone := dataStall_of_ex (hinv.scoreboard (by simp [hticks.1])) hex
  obtain ⟨-, -, hmark, -⟩ :=
    multiplyFreezesFetchAndDecodeForOneTick s t hticks hinv.fsm hinv.legal hstep hgood
  exact ⟨hnone, by simpa [hnone] using hmark⟩

/-- A data stall sends a bubble down: after it Execute has nothing to do (R132). -/
theorem next_of_dataStall (hd : dataStall s = true) : (combinationalTick s).lE.actsInExecute = false := by
  rw [next_actsInExecute, (occ_of_dataStall hd).1, issues_of_dataStall hd]
  rfl

/-- With Execute and Memory idle, Writeback's release is the last one due, and nothing stalls. -/
theorem dataStall_of_idle (hsb : ScoreboardConserved s) (hE : s.lE.actsInExecute = false) (hM : s.lM.acts = false) :
    dataStall s = false := by
  cases hc : s.cfgRelease with
  | ex => exact dataStall_of_ex hsb hc
  | wb =>
    refine dataStall_of_validMid fun r => ?_
    have hpending := pending_of_wb hc hsb r
    simpa [hE, hM, holdsWriter_false] using hpending

/-- Settles O44: two data stalls leave Execute and Memory idle. -/
theorem dataStallsLastAtMostTwoTicks : Obligations.DataStallsLastAtMostTwoTicks := by
  intro s t u hinv hticks hst hrun htu hrun' hds hdt
  have hinvT : Inv t := everyStepKeepsTheInvariant s t hinv hst
  have hinvU : Inv u := everyStepKeepsTheInvariant t u hinvT htu
  have hticksT : Ticks t := ticks_of_step hticks hst hrun
  obtain ⟨-, rfl⟩ := step_eq_mux hticks hinv.fsm hinv.legal hst (by simp [hrun])
  obtain ⟨-, rfl⟩ := step_eq_mux hticksT hinvT.fsm hinvT.legal htu (by simp [hrun'])
  refine dataStall_of_idle (hinvU.scoreboard (by simp [hrun'])) (next_of_dataStall hdt) ?_
  have hM : (combinationalTick (combinationalTick s)).lM.acts = eExecutes (combinationalTick s) := ePlus_acts hinvT.fsm
  rw [hM, eExecutes_eq, next_of_dataStall hds]
  rfl

end

end Sys2Proof.Machine

/-! Sequential execution (70_reset_and_hazards.md R241): the effect of one instruction, and what a tick does to the
architectural state that the instructions in flight stand for. -/

namespace Sys2Proof.Machine

/-! ### The effect of one instruction -/

/-- What an instruction does to the architectural state, from its two operands (41_alu.md; 42_loadstore.md R182, R184). -/
def instrEffect (size : Nat) (i : Instr) (a b : Word) (st : Arch) : Arch :=
  match i with
  | .load rd _ imm =>
    if inBounds size (effectiveAddress a imm) then
      { st with regs := st.regs.set rd (Memory.read st.dm (cellOf (effectiveAddress a imm))) }
    else st
  | .store _ _ imm =>
    if inBounds size (effectiveAddress b imm) then
      { st with dm := Memory.write st.dm (cellOf (effectiveAddress b imm)) a }
    else st
  | i =>
    match dstOf i, aluResult i a b with
    | some rd, some v => { st with regs := st.regs.set rd v }
    | _, _ => st

theorem wbEffect_of_dst {l : Latch} {rd : Reg} (h : latchDst l = some rd) (st : Arch) :
    wbEffect l st = { st with regs := st.regs.set rd l.res } := by simp [wbEffect, h]

theorem wbEffect_of_no_dst {l : Latch} (h : latchDst l = none) (st : Arch) : wbEffect l st = st := by
  simp [wbEffect, h]

theorem memThenWb_of_no_access {l : Latch} (h : accessesMemory l = false) (size : Nat) (st : Arch) :
    memThenWb size l st = wbEffect l st := by simp [memThenWb, h]

/-- Execute, Memory and Writeback of a latch have its instruction's effect, from the operands it holds. -/
theorem memThenWb_exAction {l : Latch} {i : Instr} (hi : l.record.instr = .ok i) (size : Nat) (st : Arch) :
    memThenWb size (exAction l) st = instrEffect size i l.a l.b st := by
  have hop : l.op = i.opcode := (Record.opcode_of_instr hi).symm
  have hdst : latchDst (exAction l) = dstOf i :=
    (latchDst_congr (exAction_record l)).trans (latchDst_of_instr hi)
  have hact : instrAct i l = exAction l := instrAct_eq_exAction hi
  cases i with
  | movc | add | sub | mul | and | or | xor =>
    rw [memThenWb_of_no_access (by simp [accessesMemory, hop, Instr.opcode]), wbEffect_of_dst hdst, ← hact]
    simp [instrAct, instrEffect, dstOf, aluResult, withRes]
  | bz | bnz | jump | halt =>
    rw [memThenWb_of_no_access (by simp [accessesMemory, hop, Instr.opcode]), wbEffect_of_no_dst hdst]
    rfl
  | load rd rs1 imm =>
    have hea : (exAction l).ea = effectiveAddress l.a imm := by rw [← hact]; rfl
    have hread : wbEffect { exAction l with res := Memory.read st.dm (exAction l).ea.toNat } st = _ :=
      wbEffect_of_dst (l := { exAction l with res := Memory.read st.dm (exAction l).ea.toNat }) hdst st
    unfold memThenWb
    rw [hread, hea]
    simp [accessesMemory, hop, Instr.opcode, instrEffect, cellOf]
  | store rs1 rs2 imm =>
    have hea : (exAction l).ea = effectiveAddress l.b imm ∧ (exAction l).a = l.a := by rw [← hact]; exact ⟨rfl, rfl⟩
    simp [memThenWb, accessesMemory, hop, Instr.opcode, hea, instrEffect, cellOf]

/-- A source's value in an architectural state; an instruction without that source computes with 0. -/
def Arch.operand (st : Arch) (src : Option Reg) : Word :=
  match src with
  | some r => st.regs[r]
  | none => 0

theorem seqExec_eq (size : Nat) (i : Instr) (st : Arch) :
    seqExec size i st = instrEffect size i (st.operand (src1Of i)) (st.operand (src2Of i)) st := by
  have hi : i.toRecord.instr = .ok i := by cases i <;> rfl
  exact memThenWb_exAction
    (l := { Latch.ofRecord 0 i.toRecord with a := st.operand (src1Of i), b := st.operand (src2Of i) }) hi size st

theorem wbEffect_reg_of_ne {l : Latch} {r : Reg} (h : latchDst l ≠ some r) (st : Arch) :
    (wbEffect l st).regs[r] = st.regs[r] := by
  cases hd : latchDst l with
  | none => rw [wbEffect_of_no_dst hd]
  | some q =>
    rw [wbEffect_of_dst hd]
    exact set_getElem_of_ne _ _ fun heq => h (hd.trans (congrArg some heq))

theorem memThenWb_reg_of_ne {l : Latch} {r : Reg} (h : latchDst l ≠ some r) (size : Nat) (st : Arch) :
    (memThenWb size l st).regs[r] = st.regs[r] := by
  unfold memThenWb
  split
  · split
    · split
      · exact wbEffect_reg_of_ne (l := { l with res := Memory.read st.dm l.ea.toNat }) h st
      · rfl
    · rfl
  · exact wbEffect_reg_of_ne h st

/-! ### What the instructions in flight stand for -/

section
variable {s : State}

/-- The architectural state once the instructions in `L.W` and `L.M` have finished. -/
def flushedPastExecute (s : State) : Arch :=
  let st : Arch := ⟨regsMid s, s.dm⟩
  if s.lM.acts then memThenWb s.params.dmSize s.lM st else st

theorem writeback_flushed (s : State) :
    (if s.lW.acts then wbEffect s.lW ⟨s.regs, s.dm⟩ else ⟨s.regs, s.dm⟩ : Arch) = ⟨regsMid s, s.dm⟩ := by
  unfold regsMid wbWrites
  split
  · cases hd : latchDst s.lW with
    | none => exact wbEffect_of_no_dst hd _
    | some r => exact wbEffect_of_dst hd _
  · rfl

theorem flushed_eq (s : State) :
    flushed s =
      if s.lE.actsInExecute then memThenWb s.params.dmSize (exAction s.lE) (flushedPastExecute s)
      else flushedPastExecute s := by
  rw [flushedPastExecute, ← writeback_flushed]
  rfl

theorem latchDst_of_store {l : Latch} (h : l.op = 0x8#4) : latchDst l = none := by
  have hi : l.record.instr = .ok (.store l.rs1 l.rs2 l.imm) := by simp [Record.instr, Latch.record, h]
  exact latchDst_of_instr hi

/-- The Memory step does what it does in `memThenWb`: what is left in `L.W` is its Writeback. -/
theorem memory_flushed (hmem : memRaises s = false) :
    (if s.lM.acts then wbEffect (mPlus s) ⟨regsMid s, dmNext s⟩ else ⟨regsMid s, dmNext s⟩ : Arch) =
      flushedPastExecute s := by
  cases hacts : s.lM.acts with
  | false => simp [flushedPastExecute, dmNext, hacts]
  | true =>
    by_cases hload : s.lM.op = 0x7#4
    · have hin : inBounds s.params.dmSize s.lM.ea = true := by
        simpa [memRaises, accessesMemory, hacts, hload] using hmem
      simp [flushedPastExecute, dmNext, mPlus, memThenWb, accessesMemory, hacts, hload, hin]
    · by_cases hstore : s.lM.op = 0x8#4
      · have hin : inBounds s.params.dmSize s.lM.ea = true := by
          simpa [memRaises, accessesMemory, hacts, hstore] using hmem
        simp [flushedPastExecute, dmNext, mPlus, memThenWb, accessesMemory, hacts, hstore, hin,
          wbEffect_of_no_dst (latchDst_of_store hstore)]
      · simp [flushedPastExecute, dmNext, mPlus, memThenWb, accessesMemory, hacts, hload, hstore]

/-- The marks of the multiply FSM are no part of a latch's effect. -/
theorem memThenWb_exAction_busy {l : Latch} {i : Instr} (hi : l.record.instr = .ok i) (b : Bool) (size : Nat)
    (st : Arch) : memThenWb size (exAction { l with busy := b }) st = memThenWb size (exAction l) st :=
  (memThenWb_exAction (l := { l with busy := b }) hi size st).trans (memThenWb_exAction hi size st).symm

theorem unfreeze_lE (s : State) : ∃ b, (unfreeze s).lE = { s.lE with busy := b } := by
  cases hf : mulFinishes s with
  | true => exact ⟨false, by simp [unfreeze, hf, mulFinish]⟩
  | false => exact ⟨s.lE.busy, by simp [unfreeze, hf]⟩

@[simp] theorem next_params (s : State) : (combinationalTick s).params = s.params := rfl

/-- A tick hands on what is in flight unchanged in meaning, and adds the effect of what Decode issues. -/
theorem next_flushed (hfsm : FsmInv s) (hlegal : LegalPastDecode s) (hmem : memRaises s = false) :
    flushed (combinationalTick s) =
      if issues s then memThenWb s.params.dmSize (exAction (dPlus s)) (flushed s) else flushed s := by
  have hM : (combinationalTick s).lM.acts = eExecutes s := ePlus_acts hfsm
  have hW : (combinationalTick s).lW.acts = s.lM.acts := mPlus_acts s
  have hpast : flushedPastExecute (combinationalTick s) =
      if eExecutes s then memThenWb s.params.dmSize (ePlus s) (flushedPastExecute s) else flushedPastExecute s := by
    rw [flushedPastExecute, hM, ← writeback_flushed, hW, ← memory_flushed hmem]
    rfl
  rw [flushed_eq (combinationalTick s), hpast, next_actsInExecute, flushed_eq s, eExecutes_eq]
  cases hstart : mulStarts s with
  | true =>
    obtain ⟨hacts, hop, -⟩ := actsInExecute_of_mulStarts hstart
    have hlE : (combinationalTick s).lE = { s.lE with busy := true } := by
      simp [combinationalTick, hstart, ePlus_of_mulStarts hstart]
    have hkept := memThenWb_exAction_busy (instr_of_mul_op hop) true s.params.dmSize (flushedPastExecute s)
    simpa [hacts, issues_of_mulStarts hstart, hlE] using hkept
  | false =>
    have hlE : (combinationalTick s).lE = dPlus s := by simp [combinationalTick, hstart]
    have hexec : ∀ st, s.lE.actsInExecute = true →
        memThenWb s.params.dmSize (ePlus s) st = memThenWb s.params.dmSize (exAction s.lE) st := by
      intro st hacts
      obtain ⟨b, hb⟩ := unfreeze_lE s
      obtain ⟨i, hi⟩ := Record.instr_of_opcodeKnown (r := s.lE.record) (hlegal.legalE hacts)
      rw [ePlus_of_eExecutes (by simp [eExecutes, hacts, hstart]), hb, memThenWb_exAction_busy hi]
    rw [hlE]
    cases hacts : s.lE.actsInExecute with
    | true => simp [hexec _ hacts]
    | false => simp

/-- The later latches change no register but the ones they are the writers of. -/
theorem flushed_reg_of_no_writer {r : Reg} (hE : holdsWriter s.lE.actsInExecute s.lE r = 0)
    (hM : holdsWriter s.lM.acts s.lM r = 0) : (flushed s).regs[r] = (regsMid s)[r] := by
  have hpast : (flushedPastExecute s).regs[r] = (regsMid s)[r] := by
    unfold flushedPastExecute
    cases hacts : s.lM.acts with
    | false => rfl
    | true => exact memThenWb_reg_of_ne (by simpa [holdsWriter, hacts] using hM) _ _
  rw [flushed_eq, ← hpast]
  cases hacts : s.lE.actsInExecute with
  | false => rfl
  | true =>
    refine memThenWb_reg_of_ne ?_ _ _
    rw [latchDst_congr (exAction_record s.lE)]
    simpa [holdsWriter, hacts] using hE

/-- An issue whose sources have no writer left in Execute or Memory reads what sequential execution reads. -/
theorem next_flushed_of_issues {i : Instr} (hfsm : FsmInv s) (hlegal : LegalPastDecode s) (hfresh : DecodeLatchFresh s)
    (hmem : memRaises s = false) (hissue : issues s = true) (hi : s.lD.record.instr = .ok i)
    (hsrc : ∀ r, src1Of i = some r ∨ src2Of i = some r →
      holdsWriter s.lE.actsInExecute s.lE r = 0 ∧ holdsWriter s.lM.acts s.lM r = 0) :
    flushed (combinationalTick s) = seqExec s.params.dmSize i (flushed s) := by
  obtain ⟨ha, hb, -, -⟩ := hfresh
  have hoperand : ∀ src : Option Reg, (∀ r, src = some r → src1Of i = some r ∨ src2Of i = some r) →
      readMid s src 0 = (flushed s).operand src := by
    intro src hsome
    cases src with
    | none => rfl
    | some r =>
      obtain ⟨hE, hM⟩ := hsrc r (hsome r rfl)
      exact (flushed_reg_of_no_writer hE hM).symm
  have hi' : (dPlus s).record.instr = .ok i := by rw [dPlus_record, hi]
  have hread : (dPlus s).a = readMid s (src1Of i) 0 ∧ (dPlus s).b = readMid s (src2Of i) 0 := by
    simp [dPlus, hissue, latchSrcs_of_instr hi, ha, hb]
  rw [next_flushed hfsm hlegal hmem, if_pos hissue, memThenWb_exAction hi', seqExec_eq, hread.1, hread.2,
    hoperand _ fun _ => .inl, hoperand _ fun _ => .inr]

/-- Under WB an issue waits for its sources, so no writer of them is left in Execute or Memory (R129, R157). -/
theorem no_writer_of_issues {i : Instr} (hsb : ScoreboardConserved s) (hwb : s.cfgRelease = .wb)
    (hissue : issues s = true) (hi : s.lD.record.instr = .ok i) {r : Reg} (hr : src1Of i = some r ∨ src2Of i = some r) :
    holdsWriter s.lE.actsInExecute s.lE r = 0 ∧ holdsWriter s.lM.acts s.lM r = 0 := by
  obtain ⟨h1, h2, -⟩ := not_pendingMid_of_issues hissue
  rw [latchSrcs_of_instr hi] at h1 h2
  have hvalid : (validMid s)[r] = true := by
    obtain hr | hr := hr
    · simpa [hr, pendingMid] using h1
    · simpa [hr, pendingMid] using h2
  have hpending := pending_of_wb hwb hsb r
  rw [hvalid] at hpending
  simpa using hpending

end

/-- Settles O54: what is in flight keeps its meaning, and an issue reads what sequential execution would. -/
theorem wbTickRefinesSequentialExecution : Obligations.WbTickRefinesSequentialExecution := by
  intro s t hinv hticks hwb hstep hgood
  obtain ⟨hno, rfl⟩ := step_eq_mux hticks hinv.fsm hinv.legal hstep hgood
  obtain ⟨-, hmem, -, -⟩ := firstRaise_eq_none_iff.1 hno
  refine ⟨fun hissue => ?_, fun i hissue hi => ?_⟩
  · simp [next_flushed hinv.fsm hinv.legal hmem, hissue]
  · exact next_flushed_of_issues hinv.fsm hinv.legal hinv.freshD hmem hissue hi fun r hr =>
      no_writer_of_issues (hinv.scoreboard (by simp [hticks.1])) hwb hissue hi hr

end Sys2Proof.Machine

/-! Runs of many clock edges, and the sequential end state of a completed run under WB (70_reset_and_hazards.md R241). -/

namespace Sys2Proof.Machine

/-! ### Runs -/

section
variable {s t : State}

theorem run_succ_next {u : State} (h : step s = .next u) (n : Nat) :
    Host.Core.run Sys2Proof.core (n + 1) s = Host.Core.run Sys2Proof.core n u := by
  have hcore : Sys2Proof.core.step s = .next u := h
  simp only [Host.Core.run, hcore]

/-- A run of one step more is a step and then the run. -/
theorem run_succ_eq_next {n : Nat} (h : Host.Core.run Sys2Proof.core (n + 1) s = .next t) :
    ∃ u, step s = .next u ∧ Host.Core.run Sys2Proof.core n u = .next t := by
  cases hstep : step s with
  | next u => exact ⟨u, rfl, (run_succ_next hstep n).symm.trans h⟩
  | fault r =>
    have hcore : Sys2Proof.core.step s = .fault r := hstep
    simp [Host.Core.run, hcore] at h
  | refused r =>
    have hcore : Sys2Proof.core.step s = .refused r := hstep
    simp [Host.Core.run, hcore] at h

/-- What every step keeps holds after every run. -/
theorem run_preserves {P : State → Prop} (hstep : ∀ s t, P s → step s = .next t → P t) {n : Nat} (hs : P s)
    (h : Host.Core.run Sys2Proof.core n s = .next t) : P t := by
  induction n generalizing s with
  | zero =>
    cases h
    exact hs
  | succ n ih =>
    obtain ⟨u, hu, hrun⟩ := run_succ_eq_next h
    exact ih (hstep s u hs hu) hrun

/-! ### The records still to be issued -/

/-- `L.D` holds the last record handed on (40_pipeline.md R138). -/
def DecodeHoldsRecord (s : State) : Prop :=
  s.lD.occ = true → ∃ w, 0 < fetchIndex s.params s.pc ∧ s.prog[fetchIndex s.params s.pc - 1]? = some w ∧
    s.lD.record = Record.ofWord w

/-- The records that no issue has consumed yet: the one in `L.D` and those still to be fetched. -/
def toIssue (s : State) : List RecordWord := s.prog.drop (fetchIndex s.params s.pc - s.lD.occ.toNat)

theorem next_of_frozen (h : mulStarts s = true ∨ dataStall s = true) :
    advances s = false ∧ (combinationalTick s).pc = s.pc ∧
      (combinationalTick s).lD = { s.lD with stalled := true } := by
  obtain hstart | hd := h
  · simp [advances, combinationalTick, hstart]
  · obtain ⟨hstart, -⟩ := occ_of_dataStall hd
    simp [advances, combinationalTick, hstart, hd, dPlus, issues_of_dataStall hd]

theorem next_of_moving (hstart : mulStarts s = false) (hd : dataStall s = false) :
    (combinationalTick s).lD = s.fetchLatch ∧ advances s = decide (fetchIndex s.params s.pc < s.progLen) := by
  simp [combinationalTick, advances, hstart, hd]

theorem fetchLatch_record {w : RecordWord} (h : s.fetchWord? = some w) : s.fetchLatch.record = Record.ofWord w := by
  rw [fetchLatch_of_some h]
  rfl

theorem next_decodeHoldsRecord (hc : configOk s.params s.progLen = true) (hpc : PcInRange s)
    (h : DecodeHoldsRecord s) : DecodeHoldsRecord (combinationalTick s) := by
  intro hocc
  rw [next_params, next_fetchIndex hc hpc, show (combinationalTick s).prog = s.prog from rfl]
  by_cases hfrozen : mulStarts s = true ∨ dataStall s = true
  · obtain ⟨hstay, -, hlD⟩ := next_of_frozen hfrozen
    have hrecord : (combinationalTick s).lD.record = s.lD.record := by
      rw [hlD]
      rfl
    rw [hlD] at hocc
    simpa [hstay, hrecord] using h hocc
  · obtain ⟨hstart, hd⟩ : mulStarts s = false ∧ dataStall s = false := by simpa using hfrozen
    obtain ⟨hlD, hadv⟩ := next_of_moving hstart hd
    rw [hlD, fetchLatch_occ] at hocc
    obtain ⟨w, hw⟩ : ∃ w, s.fetchWord? = some w := by
      rw [← Option.isSome_iff_exists, fetchWord_isSome, hocc]
    refine ⟨w, ?_, ?_, ?_⟩
    · simp [hadv, hocc]
    · simpa [hadv, hocc, State.fetchWord?] using hw
    · rw [hlD, fetchLatch_record hw]

/-- An issue consumes the record in `L.D`, and no other tick consumes one. -/
theorem next_toIssue (hc : configOk s.params s.progLen = true) (hpc : PcInRange s) :
    toIssue (combinationalTick s) = s.prog.drop (fetchIndex s.params s.pc - (s.lD.occ && !issues s).toNat) := by
  rw [toIssue, next_params, next_fetchIndex hc hpc, next_lD_occ, show (combinationalTick s).prog = s.prog from rfl]
  cases hstart : mulStarts s with
  | true => simp [advances, hstart, issues_of_mulStarts hstart]
  | false =>
    cases hd : dataStall s with
    | true => simp [advances, hd, issues_of_dataStall hd]
    | false => cases hocc : s.lD.occ <;> simp [advances, hstart, hd, hocc, issues]

theorem toIssue_of_issues (hdecode : DecodeHoldsRecord s) (hissue : issues s = true) {i : Instr}
    (hi : s.lD.record.instr = .ok i) :
    ∃ w, toIssue s = w :: s.prog.drop (fetchIndex s.params s.pc) ∧ decode w = .ok i := by
  obtain ⟨-, hocc, -⟩ := of_issues hissue
  obtain ⟨w, hpos, hw, hrecord⟩ := hdecode hocc
  obtain ⟨hlt, rfl⟩ := List.getElem?_eq_some_iff.1 hw
  refine ⟨_, ?_, (congrArg Record.instr hrecord).symm.trans hi⟩
  rw [toIssue, hocc, Bool.toNat_true, List.drop_eq_getElem_cons hlt, Nat.sub_add_cancel hpos]

/-! ### The sequential meaning of a run -/

/-- The sequential end state that a run from `s` is heading for: what is in flight, then the records still to be
issued. -/
def sequentialEnd (s : State) : Arch := seqRun s.params.dmSize (toIssue s) (flushed s)

/-- A tick under WB keeps the sequential end state: what it issues moves from the program into the pipeline. -/
theorem next_sequentialEnd (hinv : Inv s) (hticks : Ticks s) (hwb : s.cfgRelease = .wb) (hdecode : DecodeHoldsRecord s)
    (hno : firstRaise s = none) : sequentialEnd (combinationalTick s) = sequentialEnd s := by
  have hstep := tickIsTheAdvanceMux s hticks hinv.fsm hinv.legal hno
  obtain ⟨hkept, hgrows⟩ :=
    wbTickRefinesSequentialExecution s _ hinv hticks hwb hstep (next_good hticks.1)
  rw [sequentialEnd, next_toIssue hinv.config hinv.pcInRange, next_params]
  cases hissue : issues s with
  | false => simp [sequentialEnd, toIssue, hkept hissue]
  | true =>
    obtain ⟨hstart, hocc, -⟩ := of_issues hissue
    obtain ⟨-, -, -, hquiet⟩ := firstRaise_eq_none_iff.1 hno
    obtain ⟨i, hi, -⟩ := instr_of_decodeFault_none (hquiet (by simp [decodeProcesses, hocc, hstart]))
    obtain ⟨w, hw, hdec⟩ := toIssue_of_issues hdecode hissue hi
    simp [sequentialEnd, hw, seqRun, hdec, hgrows i hissue hi]

/-- A state of a run under WB that, unless it has faulted, is heading for the end state `a`. -/
structure HeadsFor (a : Arch) (s : State) : Prop where
  inv : Inv s
  wb : s.cfgRelease = .wb
  noReset : s.rst = false
  decodes : s.status ≠ .faulted → DecodeHoldsRecord s
  ends : s.status ≠ .faulted → sequentialEnd s = a

/-- Every clock edge of a run under WB keeps its end state, or faults. -/
theorem step_headsFor {a : Arch} (h : HeadsFor a s) (hstep : step s = .next t) : HeadsFor a t := by
  obtain ⟨-, ⟨hreset, -⟩ | ⟨hticks, -⟩ | ⟨-, -, rfl⟩⟩ := step_next_cases hstep
  · simp [h.noReset] at hreset
  · obtain ⟨-, hrelease, -, -, hrst⟩ := inputs_eq_iff.1 (step_inputs hstep)
    have hrunning : s.status ≠ .faulted := by simp [hticks.1]
    have hmux : t.status ≠ .faulted → firstRaise s = none ∧ t = combinationalTick s :=
      step_eq_mux hticks h.inv.fsm h.inv.legal hstep
    refine ⟨everyStepKeepsTheInvariant s t h.inv hstep, hrelease.trans h.wb, hrst.trans h.noReset, ?_, ?_⟩
    · intro hgood
      obtain ⟨-, rfl⟩ := hmux hgood
      exact next_decodeHoldsRecord h.inv.config h.inv.pcInRange (h.decodes hrunning)
    · intro hgood
      obtain ⟨hno, rfl⟩ := hmux hgood
      exact (next_sequentialEnd h.inv hticks h.wb (h.decodes hrunning) hno).trans (h.ends hrunning)
  · exact h

/-- With nothing in flight and nothing to fetch, the end state is reached. -/
theorem sequentialEnd_of_complete (hinv : Inv s) (hdone : s.status = .complete) :
    sequentialEnd s = ⟨s.regs, s.dm⟩ := by
  obtain ⟨-, hindex, hempty, -⟩ := completionLeavesNothingPending s hinv hdone
  obtain ⟨hD, hE, hM, hW⟩ := (inFlight_eq_zero_iff s).1 hempty
  have hnothing : toIssue s = [] := by simp [toIssue, hD, hindex, State.progLen]
  simp [sequentialEnd, hnothing, seqRun, flushed, hE, hM, hW]

end

theorem resetWith_headsFor {prog : List RecordWord} {unimpl : Unimpl} {params : Params}
    (hc : configOk params prog.length = true) :
    HeadsFor (seqRun params.dmSize prog ⟨Vector.replicate _ 0, []⟩) (State.resetWith prog .wb unimpl params) where
  inv := resetWith_inv hc
  wb := rfl
  noReset := rfl
  decodes := fun _ => nofun
  ends := fun _ => by
    have hall : toIssue (State.resetWith prog .wb unimpl params) = prog := by
      rw [toIssue, resetWith_fetchIndex hc]
      rfl
    rw [sequentialEnd, hall]
    rfl

/-- Settles O55: every step of the run keeps the sequential end state, and at Complete it is reached. -/
theorem completeRunUnderWbIsSequential : Obligations.CompleteRunUnderWbIsSequential := by
  intro prog unimpl params n t hc hrun hdone
  have hend := run_preserves (fun _ _ => step_headsFor) (resetWith_headsFor (unimpl := unimpl) hc) hrun
  rw [← hend.ends (by simp [hdone])]
  exact (sequentialEnd_of_complete hend.inv hdone).symm

end Sys2Proof.Machine

/-! The tick counts of a run (40_pipeline.md R158) and its end under either policy (70_reset_and_hazards.md R244). -/

namespace Sys2Proof.Machine

section
variable {s t : State}

/-! ### When a run is complete -/

/-- The run is Complete exactly when nothing is left to fetch and nothing is in flight (R152, R159). -/
theorem complete_iff (hinv : Inv s) (hgood : s.status ≠ .faulted) :
    s.status = .complete ↔ fetchIndex s.params s.pc = s.progLen ∧ inFlight s = 0 := by
  constructor
  · intro hdone
    obtain ⟨-, hindex, hempty, -⟩ := completionLeavesNothingPending s hinv hdone
    exact ⟨hindex, hempty⟩
  · rintro ⟨hindex, hempty⟩
    have hfetched : s.retired.toNat + inFlight s = fetchIndex s.params s.pc := hinv.fetchedOnce hgood
    cases hs : s.status with
    | complete => rfl
    | faulted => exact absurd hs hgood
    | running =>
      have hlt := hinv.driver.runningLt hs
      omega

/-- A Running state has work: something to fetch, or something in flight. -/
theorem work_of_running (hinv : Inv s) (hs : s.status = .running) :
    fetchIndex s.params s.pc < s.progLen ∨ s.lD.occ = true ∨ s.lE.actsInExecute = true ∨ s.lM.acts = true ∨
      s.lW.acts = true := by
  by_contra hnone
  simp only [not_or, Bool.not_eq_true, not_lt] at hnone
  obtain ⟨hge, hrest⟩ := hnone
  have hle : fetchIndex s.params s.pc ≤ s.progLen := hinv.pcInRange.1
  have hdone := (complete_iff hinv (by simp [hs])).2 ⟨by omega, (inFlight_eq_zero_iff s).2 hrest⟩
  simp [hs] at hdone

/-! ### The latches after a tick, for the counts -/

/-- A MUL starts in the next tick iff Decode issues one in this tick. -/
theorem next_mulStarts (hfsm : FsmInv s) :
    mulStarts (combinationalTick s) = (issues s && decide (s.lD.op = 0x3#4)) := by
  rw [mulStarts, next_actsInExecute]
  cases hstart : mulStarts s with
  | true => simp [combinationalTick, hstart, ePlus_of_mulStarts hstart, issues_of_mulStarts hstart]
  | false => simp [combinationalTick, hstart, dPlus_op, hfsm.idleD]

theorem next_lM_acts (hfsm : FsmInv s) : (combinationalTick s).lM.acts = (s.lE.actsInExecute && !mulStarts s) :=
  ePlus_acts hfsm

theorem next_lW_acts (s : State) : (combinationalTick s).lW.acts = s.lM.acts := mPlus_acts s

@[simp] theorem next_prog (s : State) : (combinationalTick s).prog = s.prog := rfl

@[simp] theorem next_progLen (s : State) : (combinationalTick s).progLen = s.progLen := rfl

/-- The MUL that waits in `L.D`, as a number. -/
def mulWaiting (s : State) : Nat := (s.lD.occ && decide (s.lD.op = 0x3#4)).toNat

/-- The MULs among the records still to be fetched. -/
def mulsToFetch (s : State) : Nat := mulCount (s.prog.drop (fetchIndex s.params s.pc))

theorem mulsToFetch_eq_zero (h : s.progLen ≤ fetchIndex s.params s.pc) : mulsToFetch s = 0 := by
  rw [mulsToFetch, List.drop_eq_nil_of_le h]
  rfl

/-- A fetched MUL leaves the program and waits in the latch. -/
theorem mulsToFetch_eq (h : fetchIndex s.params s.pc < s.progLen) :
    mulsToFetch s = (s.fetchLatch.occ && decide (s.fetchLatch.op = 0x3#4)).toNat +
      mulCount (s.prog.drop (fetchIndex s.params s.pc + 1)) := by
  have hw : s.fetchWord? = some s.prog[fetchIndex s.params s.pc] := List.getElem?_eq_getElem h
  have hop : s.fetchLatch.op = (Record.ofWord s.prog[fetchIndex s.params s.pc]).op :=
    congrArg Record.op (fetchLatch_record hw)
  rw [mulsToFetch, List.drop_eq_getElem_cons h, mulCount, List.countP_cons, mulCount, hop, fetchLatch_occ]
  by_cases hmul : (Record.ofWord s.prog[fetchIndex s.params s.pc]).op = 0x3#4 <;>
    simp [isMulRecord, hmul, h, Nat.add_comm]

/-! ### Ticks left under EX (R158) -/

/-- `ticksLeft` with one case for all states that have an instruction before Execute. -/
theorem ticksLeft_eq (s : State) :
    ticksLeft s =
      if fetchIndex s.params s.pc < s.progLen ∨ s.lD.occ = true then
        (s.progLen - fetchIndex s.params s.pc) + 4 + mulsToFetch s + mulWaiting s + (mulStarts s).toNat
      else if s.lE.actsInExecute then 3 + (mulStarts s).toNat
      else if s.lM.acts then 2
      else if s.lW.acts then 1
      else 0 := by
  unfold ticksLeft
  by_cases hk : fetchIndex s.params s.pc < s.progLen
  · simp [hk, mulsToFetch, mulWaiting]
  · have hnone := mulsToFetch_eq_zero (s := s) (by omega)
    simp [hk, hnone, mulWaiting, show s.progLen - fetchIndex s.params s.pc = 0 by omega]

theorem ite_eq_zero_iff {c : Bool} {m n : Nat} (hm : 0 < m) : (if c then m else n) = 0 ↔ c = false ∧ n = 0 := by
  cases c <;> simp [Nat.ne_of_gt hm]

theorem ticksLeft_eq_zero_iff (hle : fetchIndex s.params s.pc ≤ s.progLen) :
    ticksLeft s = 0 ↔ fetchIndex s.params s.pc = s.progLen ∧ inFlight s = 0 := by
  rw [ticksLeft_eq, inFlight_eq_zero_iff]
  by_cases hwaits : fetchIndex s.params s.pc < s.progLen ∨ s.lD.occ = true
  · rw [if_pos hwaits]
    constructor
    · intro h
      omega
    · rintro ⟨hend, hD, -⟩
      simp [hend, hD] at hwaits
  · obtain ⟨hend, hD⟩ : s.progLen ≤ fetchIndex s.params s.pc ∧ s.lD.occ = false := by simpa using hwaits
    rw [if_neg hwaits, ite_eq_zero_iff (by omega), ite_eq_zero_iff (by omega), ite_eq_zero_iff (by omega)]
    simp [hD, le_antisymm hle hend]

/-- A tick that starts a MUL: the rest of the pipeline waits one tick for it. -/
theorem next_ticksLeft_of_mulStart (hinv : Inv s) (hstart : mulStarts s = true) :
    ticksLeft (combinationalTick s) + 1 = ticksLeft s := by
  obtain ⟨hacts, -⟩ := actsInExecute_of_mulStarts hstart
  obtain ⟨-, hpc, hlD⟩ := next_of_frozen (.inl hstart)
  have hnext : mulStarts (combinationalTick s) = false := by
    rw [next_mulStarts hinv.fsm, issues_of_mulStarts hstart, Bool.false_and]
  have hE : (combinationalTick s).lE.actsInExecute = true := by simp [next_actsInExecute, hstart]
  rw [ticksLeft_eq, ticksLeft_eq, hE, hnext, hstart, hacts]
  simp only [mulsToFetch, mulWaiting, hpc, hlD, next_params, next_prog, next_progLen]
  split <;> simp

/-- A tick in which every stage moves. -/
theorem next_ticksLeft_of_moving (hinv : Inv s) (hs : s.status = .running) (hstart : mulStarts s = false)
    (hd : dataStall s = false) : ticksLeft (combinationalTick s) + 1 = ticksLeft s := by
  obtain ⟨hlD, hadv⟩ := next_of_moving hstart hd
  have hissue : issues s = s.lD.occ := by simp [issues_of_no_mulStart hstart, hd]
  have hindex := next_fetchIndex hinv.config hinv.pcInRange
  have hle : fetchIndex s.params s.pc ≤ s.progLen := hinv.pcInRange.1
  have hwaits : (mulStarts (combinationalTick s)).toNat = mulWaiting s := by
    rw [next_mulStarts hinv.fsm, hissue, mulWaiting]
  have hocc := next_lD_occ s
  rw [ticksLeft_eq, ticksLeft_eq s, hwaits, hstart, next_actsInExecute, next_lM_acts hinv.fsm, next_lW_acts, hstart,
    hissue, hocc, hstart, hd]
  by_cases hk : fetchIndex s.params s.pc < s.progLen
  · have hmuls := mulsToFetch_eq hk
    have hafter : mulsToFetch (combinationalTick s) = mulCount (s.prog.drop (fetchIndex s.params s.pc + 1)) := by
      rw [mulsToFetch, next_params, hindex, hadv, next_prog]
      simp [hk]
    have hfetched : mulWaiting (combinationalTick s) =
        (s.fetchLatch.occ && decide (s.fetchLatch.op = 0x3#4)).toNat := by rw [mulWaiting, hlD]
    simp [hindex, hadv, hk, hafter, hfetched, hmuls]
    omega
  · have hend : fetchIndex s.params s.pc = s.progLen := by omega
    have hwork := work_of_running hinv hs
    simp [hindex, hadv, hend]
    cases hD : s.lD.occ with
    | true =>
      simp [mulsToFetch_eq_zero (s := s) (by omega)]
      omega
    | false =>
      cases hE : s.lE.actsInExecute with
      | true => simp
      | false =>
        cases hM : s.lM.acts with
        | true => simp
        | false =>
          have hW : s.lW.acts = true := by simpa [hk, hD, hE, hM] using hwork
          simp [hW]

/-- A tick without a data stall brings the end one tick nearer, whatever the policy. -/
theorem next_ticksLeft (hinv : Inv s) (hs : s.status = .running) (hd : dataStall s = false) :
    ticksLeft (combinationalTick s) + 1 = ticksLeft s := by
  cases hstart : mulStarts s with
  | true => exact next_ticksLeft_of_mulStart hinv hstart
  | false => exact next_ticksLeft_of_moving hinv hs hstart hd

end

/-- Settles O56: under EX no tick has a data stall. -/
theorem ticksLeftCountsDown : Obligations.TicksLeftCountsDown := by
  intro s t hinv hticks hex hstep hgood
  have hinv' := everyStepKeepsTheInvariant s t hinv hstep
  refine ⟨?_, (complete_iff hinv' hgood).trans (ticksLeft_eq_zero_iff hinv'.pcInRange.1).symm⟩
  obtain ⟨-, rfl⟩ := step_eq_mux hticks hinv.fsm hinv.legal hstep hgood
  exact next_ticksLeft hinv hticks.1 (dataStall_of_ex (hinv.scoreboard (by simp [hticks.1])) hex)

/-! ### Work left, under either policy (R244) -/

section
variable {s t : State}

theorem workLeft_eq_zero_iff (hle : fetchIndex s.params s.pc ≤ s.progLen) :
    workLeft s = 0 ↔ fetchIndex s.params s.pc = s.progLen ∧ inFlight s = 0 := by
  have hE : 0 < (if mulStarts s then 4 else 3) := by split <;> omega
  rw [workLeft, inFlight_eq_zero_iff]
  simp only [Nat.add_eq_zero_iff, ite_eq_zero_iff hE, ite_eq_zero_iff (show 0 < 5 by omega),
    ite_eq_zero_iff (show 0 < 2 by omega), ite_eq_zero_iff (show 0 < 1 by omega), and_true, and_assoc]
  refine and_congr_left fun _ => ?_
  omega

/-- What a data stall waits for is in Execute or Memory, and moves on. -/
theorem work_of_dataStall (hsb : ScoreboardConserved s) (hd : dataStall s = true) :
    s.lE.actsInExecute = true ∨ s.lM.acts = true := by
  by_contra hnone
  simp only [not_or, Bool.not_eq_true] at hnone
  simp [dataStall_of_idle hsb hnone.1 hnone.2] at hd

theorem next_workLeft (hinv : Inv s) (hs : s.status = .running) : workLeft (combinationalTick s) < workLeft s := by
  have hindex := next_fetchIndex hinv.config hinv.pcInRange
  have hle : fetchIndex s.params s.pc ≤ s.progLen := hinv.pcInRange.1
  unfold workLeft
  rw [next_params, next_progLen, hindex, next_lD_occ, next_actsInExecute, next_mulStarts hinv.fsm,
    next_lM_acts hinv.fsm, next_lW_acts]
  cases hstart : mulStarts s with
  | true =>
    obtain ⟨hacts, -⟩ := actsInExecute_of_mulStarts hstart
    simp [advances, hstart, hacts, issues_of_mulStarts hstart]
    split <;> split <;> omega
  | false =>
    cases hd : dataStall s with
    | true =>
      have hwork := work_of_dataStall (hinv.scoreboard (by simp [hs])) hd
      simp [advances, hstart, hd, issues_of_dataStall hd]
      obtain hE | hM := hwork
      · have hM : (if s.lM.acts then 1 else 0) ≤ if s.lM.acts then 2 else 0 := by split <;> omega
        simp only [hE, reduceIte]
        omega
      · have hE : (if s.lE.actsInExecute then 2 else 0) ≤ if s.lE.actsInExecute then 3 else 0 := by
          split <;> omega
        simp only [hM, reduceIte]
        omega
    | false =>
      have hissue : issues s = s.lD.occ := by simp [issues_of_no_mulStart hstart, hd]
      have hadv : (advances s).toNat = if fetchIndex s.params s.pc < s.progLen then 1 else 0 := by
        simp [advances, hstart, hd, Bool.toNat, Bool.cond_decide]
      have hD : (if s.lD.occ then if s.lD.occ && decide (s.lD.op = 0x3#4) then 4 else 3 else 0) + s.lD.occ.toNat ≤
          if s.lD.occ then 5 else 0 := by
        cases s.lD.occ <;> simp
        split <;> omega
      have hE : (if s.lE.actsInExecute then 2 else 0) + s.lE.actsInExecute.toNat =
          if s.lE.actsInExecute then 3 else 0 := by cases s.lE.actsInExecute <;> rfl
      have hM : (if s.lM.acts then 1 else 0) + s.lM.acts.toNat = if s.lM.acts then 2 else 0 := by
        cases s.lM.acts <;> rfl
      have hW : s.lW.acts.toNat = if s.lW.acts then 1 else 0 := by cases s.lW.acts <;> rfl
      have hwork : fetchIndex s.params s.pc < s.progLen ∨
          0 < s.lD.occ.toNat + s.lE.actsInExecute.toNat + s.lM.acts.toNat + s.lW.acts.toNat := by
        obtain hfetch | h | h | h | h := work_of_running hinv hs
        · exact .inl hfetch
        all_goals simp [h]
      simp only [hissue, hadv, Bool.or_self, Bool.false_or, Bool.not_false, Bool.and_true, Bool.false_eq_true, if_false,
        decide_eq_true_eq]
      split <;> omega

end

/-- Settles O58: an instruction that moves on, or a MUL that starts, takes work away, and one of the two happens. -/
theorem workLeftFallsInEveryTick : Obligations.WorkLeftFallsInEveryTick := by
  intro s t hinv hticks hstep hgood
  have hinv' := everyStepKeepsTheInvariant s t hinv hstep
  refine ⟨?_, (complete_iff hinv' hgood).trans (workLeft_eq_zero_iff hinv'.pcInRange.1).symm⟩
  obtain ⟨-, rfl⟩ := step_eq_mux hticks hinv.fsm hinv.legal hstep hgood
  exact next_workLeft hinv hticks.1

/-- Settles O59: by induction on the work left; a tick that does not fault lowers it. -/
theorem everyRunEnds : Obligations.EveryRunEnds := by
  intro s hinv hrst
  induction hn : workLeft s using Nat.strong_induction_on generalizing s with
  | h n ih =>
    cases hs : s.status with
    | complete => exact ⟨0, s, rfl, .inl hs⟩
    | faulted => exact ⟨0, s, rfl, .inr hs⟩
    | running =>
      have hticks : Ticks s := ⟨hs, hrst, hinv.config⟩
      obtain ⟨t, hstep⟩ := invariantStateAlwaysSteps s hinv
      by_cases hfault : t.status = .faulted
      · exact ⟨1, t, run_succ_next hstep 0, .inr hfault⟩
      · obtain ⟨hless, -⟩ := workLeftFallsInEveryTick s t hinv hticks hstep hfault
        obtain ⟨-, -, -, -, hrst'⟩ := inputs_eq_iff.1 (step_inputs hstep)
        obtain ⟨m, u, hrun, hend⟩ :=
          ih (workLeft t) (hn ▸ hless) t (everyStepKeepsTheInvariant s t hinv hstep) (hrst'.trans hrst) rfl
        exact ⟨m + 1, u, (run_succ_next hstep m).trans hrun, hend⟩

end Sys2Proof.Machine

/-! Under EX a run that counts past 2^32 ticks: `clock` wraps (40_pipeline.md R107), so R158's count is not its value. -/

namespace Sys2Proof.Machine

section
variable {s : State}

/-- Under the invariant only Memory and Decode can raise (40_pipeline.md R157). -/
theorem firstRaise_eq_none_of_inv (hinv : Inv s) (hs : s.status = .running) (hmem : memRaises s = false)
    (hdecode : s.lD.occ = true → decodeFault s = none) : firstRaise s = none := by
  have hsb := hinv.scoreboard (by simp [hs])
  refine firstRaise_eq_none_iff.2 ⟨wbRaises_of_conserved hsb, hmem, exRaises_of_conserved hsb, fun hprocesses => ?_⟩
  exact hdecode (Bool.and_eq_true_iff.1 hprocesses).1

/-! ### Programs of ALU instructions never fault -/

/-- The program and the latches hold no opcode but those of MOVC to XOR, which raise nothing. -/
structure AluOnly (s : State) : Prop where
  prog : ∀ w ∈ s.prog, (Record.ofWord w).op.toNat < 7
  inD : s.lD.occ = true → s.lD.op.toNat < 7
  inE : s.lE.actsInExecute = true → s.lE.op.toNat < 7
  inM : s.lM.acts = true → s.lM.op.toNat < 7

theorem accessesMemory_of_lt {l : Latch} (h : l.op.toNat < 7) : accessesMemory l = false := by
  have h7 : l.op ≠ 0x7#4 := fun heq => by simp [heq] at h
  have h8 : l.op ≠ 0x8#4 := fun heq => by simp [heq] at h
  simp [accessesMemory, h7, h8]

theorem AluOnly.firstRaise (halu : AluOnly s) (hinv : Inv s) (hs : s.status = .running) : firstRaise s = none := by
  refine firstRaise_eq_none_of_inv hinv hs ?_ fun hocc => ?_
  · cases hacts : s.lM.acts with
    | false => simp [memRaises, hacts]
    | true => simp [memRaises, accessesMemory_of_lt (halu.inM hacts)]
  · have hop := halu.inD hocc
    simp [decodeFault, show ¬13 ≤ s.lD.op.toNat by omega, show ¬9 ≤ s.lD.op.toNat by omega]

theorem AluOnly.next (halu : AluOnly s) (hfsm : FsmInv s) : AluOnly (combinationalTick s) := by
  refine ⟨halu.prog, fun hocc => ?_, fun hacts => ?_, fun hacts => ?_⟩
  · by_cases hfrozen : mulStarts s = true ∨ dataStall s = true
    · obtain ⟨-, -, hlD⟩ := next_of_frozen hfrozen
      rw [hlD] at hocc ⊢
      exact halu.inD hocc
    · obtain ⟨hstart, hd⟩ : mulStarts s = false ∧ dataStall s = false := by simpa using hfrozen
      obtain ⟨hlD, -⟩ := next_of_moving hstart hd
      rw [hlD, fetchLatch_occ, ← fetchWord_isSome, Option.isSome_iff_exists] at hocc
      obtain ⟨w, hw⟩ := hocc
      have hop : s.fetchLatch.op = (Record.ofWord w).op := congrArg Record.op (fetchLatch_record hw)
      rw [hlD, hop]
      exact halu.prog w (List.mem_of_getElem? hw)
  · cases hstart : mulStarts s with
    | true =>
      have hlE : (combinationalTick s).lE = ePlus s := by simp [combinationalTick, hstart]
      rw [hlE, ePlus_op]
      exact halu.inE (actsInExecute_of_mulStarts hstart).1
    | false =>
      have hlE : (combinationalTick s).lE = dPlus s := by simp [combinationalTick, hstart]
      rw [hlE, dPlus_actsInExecute hstart, issues_of_no_mulStart hstart] at hacts
      rw [hlE, dPlus_op]
      exact halu.inD (Bool.and_eq_true_iff.1 hacts).1
  · rw [next_lM_acts hfsm] at hacts
    rw [show (combinationalTick s).lM = ePlus s from rfl, ePlus_op]
    exact halu.inE (Bool.and_eq_true_iff.1 hacts).1

/-- A state of a run that can raise nothing. -/
structure AluRun (s : State) : Prop where
  inv : Inv s
  noReset : s.rst = false
  good : s.status ≠ .faulted
  alu : AluOnly s

theorem AluRun.step (h : AluRun s) : ∃ t, step s = .next t ∧ AluRun t := by
  cases hs : s.status with
  | faulted => exact absurd hs h.good
  | complete => exact ⟨s, stoppedMachineChangesNothing s h.inv.config h.noReset (.inl hs), h⟩
  | running =>
    have hno := h.alu.firstRaise h.inv hs
    have hstep := tickIsTheAdvanceMux s ⟨hs, h.noReset, h.inv.config⟩ h.inv.fsm h.inv.legal hno
    have hinv := next_inv h.inv hs hno
    exact ⟨_, hstep, hinv, h.noReset, next_good hs, h.alu.next h.inv.fsm⟩

theorem AluRun.run (h : AluRun s) (n : Nat) : ∃ t, Host.Core.run Sys2Proof.core n s = .next t ∧ AluRun t := by
  induction n generalizing s with
  | zero => exact ⟨s, rfl, h⟩
  | succ n ih =>
    obtain ⟨u, hstep, hu⟩ := h.step
    obtain ⟨t, hrun, ht⟩ := ih hu
    exact ⟨t, (run_succ_next hstep n).trans hrun, ht⟩

end

theorem resetWith_aluRun {prog : List RecordWord} {release : Release} {unimpl : Unimpl} {params : Params}
    (hc : configOk params prog.length = true) (halu : ∀ w ∈ prog, (Record.ofWord w).op.toNat < 7) :
    AluRun (State.resetWith prog release unimpl params) where
  inv := resetWith_inv hc
  noReset := rfl
  good := by
    rw [resetWith_status]
    split <;> simp
  alu := ⟨halu, nofun, nofun, nofun⟩

/-- `n` records MOVC R0,#0. -/
def movcProgram (n : Nat) : List RecordWord := List.replicate n 0

theorem movcProgram_length (n : Nat) : (movcProgram n).length = n := List.length_replicate

theorem movcProgram_alu (n : Nat) : ∀ w ∈ movcProgram n, (Record.ofWord w).op.toNat < 7 := by
  intro w hw
  rw [List.eq_of_mem_replicate hw]
  decide

/-- With `P_PC_STEP = 1` the longest program R9 allows has 2^32 - 1 records. -/
def byteStep : Params := ⟨16, 4000, 0, 1⟩

/-- Refutes O57: 2^32 - 1 records MOVC at `P_PC_BASE = 0` and `P_PC_STEP = 1` run without a fault, and the count N + 4 is
2^32 + 3, which the 32-bit `clock` cannot hold (R107). -/
theorem not_faultFreeRunUnderExTakesNPlusFourPlusM : ¬ Obligations.FaultFreeRunUnderExTakesNPlusFourPlusM := by
  intro h
  obtain ⟨prog, hlen, halu⟩ :
      ∃ prog : List RecordWord, prog.length = 4294967295 ∧ ∀ w ∈ prog, (Record.ofWord w).op.toNat < 7 :=
    ⟨movcProgram 4294967295, movcProgram_length _, movcProgram_alu _⟩
  have hc : configOk byteStep prog.length = true := by
    rw [hlen]
    decide
  have hne : prog ≠ [] := List.ne_nil_of_length_pos (by omega)
  obtain ⟨t, hrun, ht⟩ := (resetWith_aluRun (release := .ex) (unimpl := .fault) hc halu).run
    (prog.length + 4 + mulCount prog)
  obtain ⟨-, hclock, -⟩ := (h prog .fault byteStep hc hne).1 t hrun ht.good
  have hwrap := count_toNat_lt t.clock
  omega

end Sys2Proof.Machine

/-! One instruction alone in the pipeline, from Decode to its retirement or its fault (70_reset_and_hazards.md R234). -/

namespace Sys2Proof.Machine

section
variable {s : State}

/-! ### The address an instruction accesses -/

/-- The effective address of LOAD and STORE, from the two operands (42_loadstore.md R180). -/
def addressOf (i : Instr) (a b : Word) : Option Word33 :=
  match i with
  | .load _ _ imm => some (effectiveAddress a imm)
  | .store _ _ imm => some (effectiveAddress b imm)
  | _ => none

theorem exAction_ea_of_access {l : Latch} {i : Instr} (hi : l.record.instr = .ok i)
    (hacc : accessesMemory (exAction l) = true) : addressOf i l.a l.b = some (exAction l).ea := by
  have hop : l.op = i.opcode := (Record.opcode_of_instr hi).symm
  rw [← instrAct_eq_exAction hi]
  cases i with
  | load | store => rfl
  | movc | add | sub | mul | and | or | xor | bz | bnz | jump | halt =>
    simp [accessesMemory, hop, Instr.opcode] at hacc

/-! ### Draining the pipeline -/

/-- Nothing is left before Execute, and no access past Decode is out of bounds. -/
structure Draining (s : State) : Prop where
  inv : Inv s
  noReset : s.rst = false
  good : s.status ≠ .faulted
  fetched : fetchIndex s.params s.pc = s.progLen
  issued : s.lD.occ = false
  inE : s.lE.actsInExecute = true → accessesMemory (exAction s.lE) = true →
    inBounds s.params.dmSize (exAction s.lE).ea = true
  inM : memRaises s = false

theorem memRaises_eq_false_iff (s : State) :
    memRaises s = false ↔
      (s.lM.acts = true → accessesMemory s.lM = true → inBounds s.params.dmSize s.lM.ea = true) := by
  cases ha : s.lM.acts <;> cases hm : accessesMemory s.lM <;> simp [memRaises, ha, hm]

theorem exAction_busy_comm (l : Latch) (b : Bool) :
    exAction { l with busy := b } = { exAction l with busy := b } := by
  dsimp only [exAction]
  split <;> rfl

/-- What Memory holds after Execute completed in the tick before. -/
theorem next_lM (he : eExecutes s = true) :
    ∃ b, (combinationalTick s).lM = { exAction s.lE with busy := b } := by
  obtain ⟨b, hb⟩ := unfreeze_lE s
  exact ⟨b, (ePlus_of_eExecutes he).trans (by rw [hb, exAction_busy_comm])⟩

/-- The address that Execute leaves is the one Memory checks in the next tick. -/
theorem next_memRaises (hfsm : FsmInv s)
    (hE : s.lE.actsInExecute = true → accessesMemory (exAction s.lE) = true →
      inBounds s.params.dmSize (exAction s.lE).ea = true) :
    memRaises (combinationalTick s) = false := by
  refine (memRaises_eq_false_iff _).2 fun hacts hacc => ?_
  rw [next_lM_acts hfsm] at hacts
  obtain ⟨b, hlM⟩ := next_lM hacts
  rw [hlM] at hacc ⊢
  exact hE (Bool.and_eq_true_iff.1 hacts).1 hacc

theorem next_pc_of_fetched (h : fetchIndex s.params s.pc = s.progLen) : (combinationalTick s).pc = s.pc := by
  rw [next_pc, advances, h]
  simp

theorem Draining.firstRaise (h : Draining s) (hs : s.status = .running) : firstRaise s = none :=
  firstRaise_eq_none_of_inv h.inv hs h.inM fun hocc => by simp [h.issued] at hocc

theorem dataStall_of_no_occ (h : s.lD.occ = false) : dataStall s = false := by simp [dataStall, h]

theorem issues_of_no_occ (h : s.lD.occ = false) : issues s = false := by simp [issues, h]

theorem Draining.next (h : Draining s) (hs : s.status = .running) : Draining (combinationalTick s) where
  inv := next_inv h.inv hs (h.firstRaise hs)
  noReset := h.noReset
  good := next_good hs
  fetched := by
    rw [next_pc_of_fetched h.fetched]
    exact h.fetched
  issued := by simp [next_lD_occ, h.issued, h.fetched]
  inE := by
    intro hacts hacc
    rw [next_actsInExecute, issues_of_no_occ h.issued, Bool.or_false] at hacts
    obtain ⟨-, hop, -⟩ := actsInExecute_of_mulStarts hacts
    simp [accessesMemory, combinationalTick, hacts, ePlus_op, hop] at hacc
  inM := next_memRaises h.inv.fsm h.inE

/-- The instructions past Decode finish in `ticksLeft` ticks, and their meaning is the end state. -/
theorem Draining.run (h : Draining s) :
    ∃ t : State, Host.Core.run Sys2Proof.core (ticksLeft s) s = .next t ∧ t.status = .complete ∧ Inv t ∧
      flushed t = flushed s ∧ t.pc = s.pc ∧ t.progLen = s.progLen ∧ t.clock = s.clock + BitVec.ofNat 32 (ticksLeft s) := by
  induction hn : ticksLeft s generalizing s with
  | zero =>
    have hdone := (complete_iff h.inv h.good).2 ((ticksLeft_eq_zero_iff h.inv.pcInRange.1).1 hn)
    exact ⟨s, rfl, hdone, h.inv, rfl, rfl, rfl, by simp⟩
  | succ n ih =>
    have hs : s.status = .running := by
      cases hs : s.status with
      | running => rfl
      | faulted => exact absurd hs h.good
      | complete =>
        have hzero := (ticksLeft_eq_zero_iff h.inv.pcInRange.1).2 ((complete_iff h.inv h.good).1 hs)
        omega
    have hstep := tickIsTheAdvanceMux s ⟨hs, h.noReset, h.inv.config⟩ h.inv.fsm h.inv.legal (h.firstRaise hs)
    have hticks := next_ticksLeft h.inv hs (dataStall_of_no_occ h.issued)
    obtain ⟨t, hrun, hdone, hinv, hflushed, hpc, hlen, hclock⟩ := ih (h.next hs) (by omega)
    refine ⟨t, (run_succ_next hstep n).trans hrun, hdone, hinv, ?_, ?_, hlen, ?_⟩
    · rw [hflushed, next_flushed h.inv.fsm h.inv.legal h.inM, issues_of_no_occ h.issued]
      rfl
    · rw [hpc, next_pc_of_fetched h.fetched]
    · rw [hclock, show (combinationalTick s).clock = s.clock + 1 from rfl, BitVec.ofNat_add, BitVec.add_assoc,
        BitVec.add_comm 1]
      rfl

/-! ### The first tick of an instruction alone -/

/-- An operand read from the registers, or 0 for a source the instruction does not have. -/
def sourceValue (s : State) (src : Option Reg) : Word :=
  match src with
  | some r => s.reg r
  | none => 0

/-- Decode raises nothing on an instruction, but on a control opcode under `P_UNIMPL = Fault`. -/
theorem decodeFault_of_instr {i : Instr} (hi : s.lD.record.instr = .ok i)
    (hcontrol : isControl i = true → s.cfgUnimpl = .nop) : decodeFault s = none := by
  have hop : i.opcode = s.lD.op := Record.opcode_of_instr hi
  have hlt := i.opcode_lt
  have hnot : ¬(s.cfgUnimpl = .fault ∧ 9 ≤ s.lD.op.toNat) := by
    rintro ⟨hu, hlow⟩
    simp [hcontrol ((isControl_iff i).2 (hop ▸ hlow))] at hu
  rw [hop] at hlt
  rw [decodeFault, if_neg (by omega), if_neg hnot]

theorem memRaises_of_idle (hM : s.lM.acts = false) : memRaises s = false := by simp [memRaises, hM]

theorem mulStarts_of_idle (hE : s.lE.actsInExecute = false) : mulStarts s = false := by simp [mulStarts, hE]

section
variable {i : Instr}

theorem AloneInDecode.firstRaise (h : AloneInDecode i s) (hcontrol : isControl i = true → s.cfgUnimpl = .nop) :
    firstRaise s = none :=
  firstRaise_eq_none_of_inv h.inv h.ticks.1 (memRaises_of_idle h.emptyM) fun _ =>
    decodeFault_of_instr h.holds hcontrol

theorem AloneInDecode.dataStall (h : AloneInDecode i s) : dataStall s = false :=
  dataStall_of_idle (h.inv.scoreboard (by simp [h.ticks.1])) h.emptyE h.emptyM

theorem AloneInDecode.issues (h : AloneInDecode i s) : issues s = true := by
  simp [Machine.issues, mulStarts_of_idle h.emptyE, h.waiting, h.dataStall]

theorem AloneInDecode.flushed (h : AloneInDecode i s) : flushed s = ⟨s.regs, s.dm⟩ := by
  simp [Machine.flushed, h.emptyE, h.emptyM, h.emptyW]

/-- What the first tick hands to Execute: the instruction with its operands. -/
theorem AloneInDecode.next_lE (h : AloneInDecode i s) :
    (combinationalTick s).lE =
      { s.lD with stalled := false, a := sourceValue s (src1Of i), b := sourceValue s (src2Of i) } := by
  obtain ⟨ha, hb, -, -⟩ := h.inv.freshD
  have hread : ∀ src, readMid s src 0#32 = sourceValue s src := by
    intro src
    cases src with
    | none => rfl
    | some r => exact (regsMid_getElem s r).trans (if_neg (by simp [wbWrites, h.emptyW]))
  simp [combinationalTick, mulStarts_of_idle h.emptyE, dPlus, h.issues, latchSrcs_of_instr h.holds, ha, hb, hread]

theorem AloneInDecode.ticksLeft (h : AloneInDecode i s) : ticksLeft s = 3 + executeTicks i := by
  have hop : s.lD.op = i.opcode := (Record.opcode_of_instr h.holds).symm
  rw [ticksLeft_eq, mulStarts_of_idle h.emptyE, mulsToFetch_eq_zero h.nothingToFetch.ge, mulWaiting, h.waiting,
    h.nothingToFetch, hop]
  cases i <;> simp [Instr.opcode, executeTicks]

theorem AloneInDecode.next_lE_acts (h : AloneInDecode i s) :
    (combinationalTick s).lE.actsInExecute = true := by
  rw [next_actsInExecute, h.issues, Bool.or_true]

theorem AloneInDecode.next_lD_occ (h : AloneInDecode i s) : (combinationalTick s).lD.occ = false := by
  simp [Machine.next_lD_occ, mulStarts_of_idle h.emptyE, h.dataStall, h.nothingToFetch]

/-- The tick that issues the instruction leaves the rest of the pipeline empty. -/
theorem AloneInDecode.draining (h : AloneInDecode i s) (hcontrol : isControl i = true → s.cfgUnimpl = .nop)
    (hin : ∀ ea, addressOf i (sourceValue s (src1Of i)) (sourceValue s (src2Of i)) = some ea →
      inBounds s.params.dmSize ea = true) : Draining (combinationalTick s) where
  inv := next_inv h.inv h.ticks.1 (h.firstRaise hcontrol)
  noReset := h.ticks.2.1
  good := next_good h.ticks.1
  fetched := by
    rw [next_pc_of_fetched h.nothingToFetch]
    exact h.nothingToFetch
  issued := h.next_lD_occ
  inE := by
    intro _ hacc
    rw [h.next_lE] at hacc ⊢
    exact hin _ (exAction_ea_of_access (i := i) (l :=
      { s.lD with stalled := false, a := sourceValue s (src1Of i), b := sourceValue s (src2Of i) }) h.holds hacc)
  inM := next_memRaises h.inv.fsm fun hacts => by simp [h.emptyE] at hacts

theorem sourceValue_eq_operand (s : State) (src : Option Reg) :
    sourceValue s src = (⟨s.regs, s.dm⟩ : Arch).operand src := by cases src <;> rfl

/-- The one issue reads registers that nobody in flight writes. -/
theorem AloneInDecode.next_flushed (h : AloneInDecode i s) :
    Machine.flushed (combinationalTick s) =
      instrEffect s.params.dmSize i (sourceValue s (src1Of i)) (sourceValue s (src2Of i)) ⟨s.regs, s.dm⟩ := by
  rw [next_flushed_of_issues h.inv.fsm h.inv.legal h.inv.freshD (memRaises_of_idle h.emptyM) h.issues h.holds
    fun r _ => ⟨by rw [h.emptyE, holdsWriter_false], by rw [h.emptyM, holdsWriter_false]⟩,
    h.flushed, seqExec_eq, ← sourceValue_eq_operand, ← sourceValue_eq_operand]

/-- An instruction alone that raises nothing retires in its own number of ticks, with its effect and no other. -/
theorem AloneInDecode.run (h : AloneInDecode i s) (hcontrol : isControl i = true → s.cfgUnimpl = .nop)
    (hin : ∀ ea, addressOf i (sourceValue s (src1Of i)) (sourceValue s (src2Of i)) = some ea →
      inBounds s.params.dmSize ea = true) :
    ∃ t : State, Host.Core.run Sys2Proof.core (3 + executeTicks i) s = .next t ∧ t.status = .complete ∧
      (⟨t.regs, t.dm⟩ : Arch) =
        instrEffect s.params.dmSize i (sourceValue s (src1Of i)) (sourceValue s (src2Of i)) ⟨s.regs, s.dm⟩ ∧
      t.valid = s.valid ∧ t.pc = s.pc ∧ t.retired = s.retired + 1 ∧
      t.clock = s.clock + BitVec.ofNat 32 (3 + executeTicks i) := by
  have hstep := tickIsTheAdvanceMux s h.ticks h.inv.fsm h.inv.legal (h.firstRaise hcontrol)
  have hticks := next_ticksLeft h.inv h.ticks.1 h.dataStall
  obtain ⟨t, hrun, hdone, hinv, hflushed, hpc, hlen, hclock⟩ := (h.draining hcontrol hin).run
  obtain ⟨hretired, -, hempty, hvalid⟩ := completionLeavesNothingPending t hinv hdone
  obtain ⟨-, hE, hM, hW⟩ := (inFlight_eq_zero_iff t).1 hempty
  have hvalid' := validAt_of_idle (h.inv.scoreboard (by simp [h.ticks.1])) h.emptyE h.emptyM h.emptyW
  refine ⟨t, ?run, hdone, ?effect, ?valid, ?pc, ?retired, ?clock⟩
  case run => rw [← h.ticksLeft, ← hticks, run_succ_next hstep, hrun]
  case effect =>
    rw [← h.next_flushed, ← hflushed]
    simp [Machine.flushed, hE, hM, hW]
  case valid =>
    refine Vector.ext fun r hr => ?_
    exact (hvalid ⟨r, hr⟩).trans (hvalid' ⟨r, hr⟩).symm
  case pc => rw [hpc, next_pc_of_fetched h.nothingToFetch]
  case retired =>
    have hfetched : s.retired.toNat + inFlight s = fetchIndex s.params s.pc := h.inv.fetchedOnce (by simp [h.ticks.1])
    have hone : inFlight s = 1 := by simp [inFlight, h.waiting, h.emptyE, h.emptyM, h.emptyW]
    have hbound := progLen_lt_of_configOk h.inv.config
    have hlen' : t.progLen = s.progLen := hlen
    have hN := h.nothingToFetch
    refine BitVec.eq_of_toNat_eq ?_
    rw [count_toNat_add_one _ (by omega)]
    omega
  case clock =>
    rw [hclock, ← h.ticksLeft, ← hticks, show (combinationalTick s).clock = s.clock + 1 from rfl, BitVec.ofNat_add,
      BitVec.add_assoc, BitVec.add_comm 1]
    rfl

end

end

theorem instrEffect_of_aluResult {i : Instr} {rd : Reg} {a b v : Word} (hdst : dstOf i = some rd)
    (hv : aluResult i a b = some v) (size : Nat) (st : Arch) :
    instrEffect size i a b st = { st with regs := st.regs.set rd v } := by
  cases i with
  | load | store | bz | bnz | jump | halt => cases hv
  | movc | add | sub | mul | and | or | xor => simp [instrEffect, hdst, hv]

/-- Settles O50: its one effect is its result in its destination. -/
theorem loneAluInstructionRetires : Obligations.LoneAluInstructionRetires := by
  intro i s rd v h hdst hv
  have hcontrol : isControl i = true → s.cfgUnimpl = .nop := fun hc => by
    simp [(sources_of_isControl hc).2.2] at hdst
  have hin : ∀ ea, addressOf i (sourceValue s (src1Of i)) (sourceValue s (src2Of i)) = some ea →
      inBounds s.params.dmSize ea = true := by
    intro ea hea
    cases i with
    | load | store => cases hv
    | movc | add | sub | mul | and | or | xor | bz | bnz | jump | halt => cases hea
  obtain ⟨t, hrun, hdone, heffect, hvalid, hpc, hretired, hclock⟩ := h.run hcontrol hin
  have hv' : aluResult i (sourceValue s (src1Of i)) (sourceValue s (src2Of i)) = some v := hv
  rw [instrEffect_of_aluResult hdst hv'] at heffect
  obtain ⟨hregs, hdm⟩ := Arch.mk.inj heffect
  exact ⟨t, hrun, hdone, hregs, hdm, hvalid, hpc, hretired, hclock⟩

end Sys2Proof.Machine

/-! LOAD, STORE and the control opcodes alone in the pipeline (42_loadstore.md R180 to R184; 43_control.md R190). -/

namespace Sys2Proof.Machine

section
variable {s : State}

/-! ### An access out of bounds -/

/-- A tick in which Memory and Writeback are idle changes no register and no cell, and retires nothing. -/
theorem next_of_idle (hM : s.lM.acts = false) (hW : s.lW.acts = false) :
    (combinationalTick s).regs = s.regs ∧ (combinationalTick s).dm = s.dm ∧ (combinationalTick s).retired = s.retired := by
  simp [combinationalTick, regsMid, wbWrites, dmNext, retiredNext, hM, hW]

theorem running_of_acts (hinv : Inv s) (hgood : s.status ≠ .faulted)
    (hacts : s.lE.actsInExecute = true ∨ s.lM.acts = true) : s.status = .running := by
  cases hs : s.status with
  | running => rfl
  | faulted => exact absurd hs hgood
  | complete =>
    obtain ⟨-, -, hempty, -⟩ := completionLeavesNothingPending s hinv hs
    obtain ⟨-, hE, hM, -⟩ := (inFlight_eq_zero_iff s).1 hempty
    simp [hE, hM] at hacts

/-- Only LOAD and STORE have an address. -/
theorem opcode_of_addressOf {i : Instr} {a b : Word} {ea : Word33} (h : addressOf i a b = some ea) :
    (i.opcode = 0x7#4 ∨ i.opcode = 0x8#4) ∧ isControl i = false := by
  cases i with
  | load | store => simp [Instr.opcode, isControl]
  | movc | add | sub | mul | and | or | xor | bz | bnz | jump | halt => cases h

@[simp] theorem exAction_pc (l : Latch) : (exAction l).pc = l.pc := by unfold exAction; split <;> rfl

theorem tick_of_bounds (hinv : Inv s) (hs : s.status = .running) (hW : s.lW.acts = false) (hmem : memRaises s = true) :
    tick s = .next (takeFault s ⟨.bounds, s.lM.pc, s.lM.ea⟩) := by
  have hwb := wbRaises_of_conserved (hinv.scoreboard (by simp [hs]))
  have hf : firstRaise s = some ⟨.bounds, s.lM.pc, s.lM.ea⟩ := by simp [firstRaise, hwb, hmem]
  rw [tick_of_memRaises hs hinv.legal hwb hmem hf, afterWriteback_of_idle hW]

/-- An access out of bounds in Execute, with nothing else in flight: this tick hands it on, and the next one faults. -/
theorem access_in_execute_faults (hinv : Inv s) (hticks : Ticks s) (hD : s.lD.occ = false)
    (hE : s.lE.actsInExecute = true) (hM : s.lM.acts = false) (hW : s.lW.acts = false)
    (hop : s.lE.op = 0x7#4 ∨ s.lE.op = 0x8#4) (hout : inBounds s.params.dmSize (exAction s.lE).ea = false) :
    ∃ t : State, Host.Core.run Sys2Proof.core 2 s = .next t ∧ t.status = .faulted ∧ t.faultCode = .bounds ∧
      t.faultPc = s.lE.pc ∧ t.faultInfo = (exAction s.lE).ea ∧ t.regs = s.regs ∧ t.dm = s.dm ∧ t.retired = s.retired := by
  have hno := firstRaise_eq_none_of_inv hinv hticks.1 (memRaises_of_idle hM) fun hocc => by simp [hD] at hocc
  have hstep := tickIsTheAdvanceMux s hticks hinv.fsm hinv.legal hno
  have hinv' := next_inv hinv hticks.1 hno
  have hstart : mulStarts s = false := by obtain h | h := hop <;> simp [mulStarts, h]
  have hacts : (combinationalTick s).lM.acts = true := by rw [next_lM_acts hinv.fsm, hE, hstart]; rfl
  obtain ⟨b, hlM⟩ := next_lM (s := s) (by rw [eExecutes_eq, hE, hstart]; rfl)
  have hrun := running_of_acts hinv' (next_good hticks.1) (.inr hacts)
  have hmem : memRaises (combinationalTick s) = true := by
    rw [memRaises, hacts]
    obtain h | h := hop <;> simp [accessesMemory, hlM, h, hout]
  have htick := tick_of_bounds hinv' hrun ((next_lW_acts s).trans hM) hmem
  have hfault := (step_of_ticks (ticks_of_step hticks hstep hrun)).trans htick
  obtain ⟨hregs, hdm, hretired⟩ := next_of_idle hM hW
  refine ⟨_, (run_succ_next hstep 1).trans (run_succ_next hfault 0), rfl, rfl, ?_, ?_, hregs, hdm, hretired⟩
  · simp [hlM]
  · simp [hlM]

/-- A LOAD or STORE alone that is out of bounds faults in its third tick, before it has changed anything (R181). -/
theorem AloneInDecode.faults {i : Instr} (h : AloneInDecode i s) {ea : Word33}
    (haddr : addressOf i (sourceValue s (src1Of i)) (sourceValue s (src2Of i)) = some ea)
    (hout : inBounds s.params.dmSize ea = false) :
    ∃ t : State, Host.Core.run Sys2Proof.core 3 s = .next t ∧ t.status = .faulted ∧ t.faultCode = .bounds ∧
      t.faultPc = s.lD.pc ∧ t.faultInfo = ea ∧ t.regs = s.regs ∧ t.dm = s.dm ∧ t.retired = s.retired := by
  obtain ⟨hopcode, hcontrol⟩ := opcode_of_addressOf haddr
  have hop : i.opcode = s.lD.op := Record.opcode_of_instr h.holds
  have hno := h.firstRaise (by simp [hcontrol])
  have hstep := tickIsTheAdvanceMux s h.ticks h.inv.fsm h.inv.legal hno
  have hinv := next_inv h.inv h.ticks.1 hno
  have hrun := running_of_acts hinv (next_good h.ticks.1) (.inl h.next_lE_acts)
  have hM : (combinationalTick s).lM.acts = false := by rw [next_lM_acts h.inv.fsm, h.emptyE]; rfl
  have hlE := h.next_lE
  have hopE : (combinationalTick s).lE.op = i.opcode := by rw [hlE, hop]
  have hea : (exAction (combinationalTick s).lE).ea = ea := by
    have hacc : accessesMemory (exAction (combinationalTick s).lE) = true := by
      simpa [accessesMemory, hopE] using hopcode
    rw [hlE] at hacc ⊢
    have hsame := exAction_ea_of_access (i := i) (l :=
      { s.lD with stalled := false, a := sourceValue s (src1Of i), b := sourceValue s (src2Of i) }) h.holds hacc
    exact Option.some.inj (hsame.symm.trans haddr)
  obtain ⟨t, hrun2, hstatus, hcode, hpc, hinfo, hregs, hdm, hretired⟩ :=
    access_in_execute_faults hinv (ticks_of_step h.ticks hstep hrun) h.next_lD_occ h.next_lE_acts hM
      ((next_lW_acts s).trans h.emptyM) (hopE ▸ hopcode) (hea ▸ hout)
  obtain ⟨hregs1, hdm1, hretired1⟩ := next_of_idle h.emptyM h.emptyW
  refine ⟨t, (run_succ_next hstep 2).trans hrun2, hstatus, hcode, ?_, hinfo.trans hea, hregs.trans hregs1,
    hdm.trans hdm1, hretired.trans hretired1⟩
  rw [hpc, hlE]

end

/-! ### LOAD and STORE -/

theorem inBounds_iff {size : Nat} {ea : Word33} : inBounds size ea = true ↔ 0 ≤ ea.toInt ∧ ea.toInt < (size : Int) := by
  simp [inBounds]

theorem cellOf_eq {size : Nat} {ea : Word33} (h : inBounds size ea = true) : cellOf ea = ea.toInt.toNat := by
  rw [(inBounds_cellOf h).2, Int.toNat_natCast]

theorem instrEffect_load {size : Nat} {rd : Reg} {a imm : Word} {ea : Int} (rs1 : Reg) (b : Word) (st : Arch)
    (h : inBounds size (effectiveAddress a imm) = true) (hea : (effectiveAddress a imm).toInt = ea) :
    instrEffect size (.load rd rs1 imm) a b st = { st with regs := st.regs.set rd (Memory.read st.dm ea.toNat) } :=
  (if_pos h).trans (by rw [cellOf_eq h, hea])

theorem instrEffect_store {size : Nat} {b imm : Word} {ea : Int} (rs1 rs2 : Reg) (a : Word) (st : Arch)
    (h : inBounds size (effectiveAddress b imm) = true) (hea : (effectiveAddress b imm).toInt = ea) :
    instrEffect size (.store rs1 rs2 imm) a b st = { st with dm := Memory.write st.dm ea.toNat a } :=
  (if_pos h).trans (by rw [cellOf_eq h, hea])

/-- Settles O51: the address is base plus offset, exactly, and the cell there is the result. -/
theorem loneLoadRetiresOrFaults : Obligations.LoneLoadRetiresOrFaults := by
  intro s rd rs1 imm h ea
  have hea : (effectiveAddress (s.reg rs1) imm).toInt = ea := effectiveAddress_toInt _ _
  refine ⟨fun hlow hhigh => ?retires, fun hout => ?faults⟩
  case retires =>
    have hin : inBounds s.params.dmSize (effectiveAddress (s.reg rs1) imm) = true :=
      inBounds_iff.2 (hea.symm ▸ ⟨hlow, hhigh⟩)
    obtain ⟨t, hrun, hdone, heffect, hvalid, -, hretired, hclock⟩ := h.run nofun (by rintro _ ⟨⟩; exact hin)
    obtain ⟨hregs, hdm⟩ := Arch.mk.inj (heffect.trans (instrEffect_load rs1 _ _ hin hea))
    exact ⟨t, hrun, hdone, hregs, hdm, hvalid, hretired, hclock⟩
  case faults =>
    have hout' := inBounds_eq_false_iff.2 (hea.symm ▸ hout)
    obtain ⟨t, hrun, hstatus, hcode, hpc, hinfo, hrest⟩ := h.faults rfl hout'
    exact ⟨t, hrun, hstatus, hcode, hpc, hinfo ▸ hea, hrest⟩

/-- Settles O52: the address is base plus offset, exactly, and the cell there takes the value. -/
theorem loneStoreRetiresOrFaults : Obligations.LoneStoreRetiresOrFaults := by
  intro s rs1 rs2 imm h ea
  have hea : (effectiveAddress (s.reg rs2) imm).toInt = ea := effectiveAddress_toInt _ _
  refine ⟨fun hlow hhigh => ?retires, fun hout => ?faults⟩
  case retires =>
    have hin : inBounds s.params.dmSize (effectiveAddress (s.reg rs2) imm) = true :=
      inBounds_iff.2 (hea.symm ▸ ⟨hlow, hhigh⟩)
    obtain ⟨t, hrun, hdone, heffect, hvalid, -, hretired, hclock⟩ := h.run nofun (by rintro _ ⟨⟩; exact hin)
    obtain ⟨hregs, hdm⟩ := Arch.mk.inj (heffect.trans (instrEffect_store rs1 rs2 _ _ hin hea))
    refine ⟨t, hrun, hdone, hregs, fun c => ?_, hvalid, hretired, hclock⟩
    rw [hdm]
    exact Memory.read_write h.inv.memory ea.toNat (s.reg rs1) c
  case faults =>
    have hout' := inBounds_eq_false_iff.2 (hea.symm ▸ hout)
    obtain ⟨t, hrun, hstatus, hcode, hpc, hinfo, hrest⟩ := h.faults rfl hout'
    exact ⟨t, hrun, hstatus, hcode, hpc, hinfo ▸ hea, hrest⟩

/-! ### The control opcodes -/

theorem instrEffect_of_isControl {i : Instr} (hi : isControl i = true) (size : Nat) (a b : Word) (st : Arch) :
    instrEffect size i a b st = st := by
  cases i with
  | bz | bnz | jump | halt => rfl
  | movc | add | sub | mul | and | or | xor | load | store => cases hi

/-- Settles O53: under Nop it has no effect to add, and under Fault Decode raises in its first tick. -/
theorem loneControlOpcodeRetiresOrFaults : Obligations.LoneControlOpcodeRetiresOrFaults := by
  intro i s h hi
  refine ⟨fun hu => ?nop, fun hu => ?fault⟩
  case nop =>
    have hin : ∀ ea, addressOf i (sourceValue s (src1Of i)) (sourceValue s (src2Of i)) = some ea →
        inBounds s.params.dmSize ea = true := by
      intro ea hea
      simp [(opcode_of_addressOf hea).2] at hi
    have hticks : executeTicks i = 1 := by
      cases i with
      | mul => cases hi
      | movc | add | sub | and | or | xor | load | store | bz | bnz | jump | halt => rfl
    obtain ⟨t, hrun, hdone, heffect, hvalid, hpc, hretired, hclock⟩ := h.run (fun _ => hu) hin
    rw [instrEffect_of_isControl hi] at heffect
    rw [hticks] at hrun hclock
    obtain ⟨hregs, hdm⟩ := Arch.mk.inj heffect
    exact ⟨t, hrun, hdone, hregs, hdm, hvalid, hpc, hretired, hclock⟩
  case fault =>
    have hop : i.opcode = s.lD.op := Record.opcode_of_instr h.holds
    have hlow : 9 ≤ s.lD.op.toNat := hop ▸ (isControl_iff i).1 hi
    have hhigh : s.lD.op.toNat < 13 := hop ▸ i.opcode_lt
    have hsb := h.inv.scoreboard (by simp [h.ticks.1])
    have hwb := wbRaises_of_conserved hsb
    have hex := exRaises_of_conserved hsb
    have hmem := memRaises_of_idle h.emptyM
    have hf : firstRaise s = some ⟨.unimpl, s.lD.pc, opInfo s.lD.op⟩ := by
      simp [firstRaise, hwb, hmem, hex, malformedRaises, unimplRaises, decodeProcesses, h.waiting,
        mulStarts_of_idle h.emptyE, hu, hlow, show ¬13 ≤ s.lD.op.toNat by omega, show s.lD.op.toNat ≤ 12 by omega]
    have htick := tick_of_decodeFault h.ticks.1 h.inv.legal hwb hmem hex hf
    rw [afterWriteback_of_idle h.emptyW, afterMemory_of_idle h.emptyM,
      afterExecute_of_idle (s := s.setW s.lM) h.emptyE] at htick
    exact ⟨_, (step_of_ticks h.ticks).trans htick, rfl, rfl, rfl, by rw [hop]; rfl, rfl, rfl, rfl, rfl⟩

end Sys2Proof.Machine

/-! The instruction set as a format (30_encoding.md R81 to R87): decode against encode, the fields used, and the reserved
opcodes. -/

namespace Sys2Proof

/-- Settles O4: `Laws.EncodeDecode`, one law for each instruction. -/
theorem decodeOfEncodeIsTheInstruction : Obligations.DecodeOfEncodeIsTheInstruction := by
  intro i
  cases i with
  | movc rd imm => exact Laws.EncodeDecode.movc rd imm
  | add rd rs1 rs2 => exact Laws.EncodeDecode.add rd rs1 rs2
  | sub rd rs1 rs2 => exact Laws.EncodeDecode.sub rd rs1 rs2
  | mul rd rs1 rs2 => exact Laws.EncodeDecode.mul rd rs1 rs2
  | and rd rs1 rs2 => exact Laws.EncodeDecode.and rd rs1 rs2
  | or rd rs1 rs2 => exact Laws.EncodeDecode.or rd rs1 rs2
  | xor rd rs1 rs2 => exact Laws.EncodeDecode.xor rd rs1 rs2
  | load rd rs1 imm => exact Laws.EncodeDecode.load rd rs1 imm
  | store rs1 rs2 imm => exact Laws.EncodeDecode.store rs1 rs2 imm
  | bz => exact Laws.EncodeDecode.bz
  | bnz => exact Laws.EncodeDecode.bnz
  | jump => exact Laws.EncodeDecode.jump
  | halt => exact Laws.EncodeDecode.halt

/-- Settles O5: the opcode value decides the instruction, and with it the fields the encoder writes. -/
theorem decodingKeepsTheUsedFieldsAndIgnoresTheRest : Obligations.DecodingKeepsTheUsedFieldsAndIgnoresTheRest := by
  intro r i hi
  have hop : r.op = i.opcode := (Record.opcode_of_instr hi).symm
  unfold Record.instr at hi
  split at hi <;> cases hi <;>
    simp [hop, Instr.toRecord, Instr.opcode, OpBits.usesRd, OpBits.usesRs1, OpBits.usesRs2, OpBits.usesImm]

theorem OpBits.reserved_iff (op : OpBits) : 13 ≤ op.toNat ↔ op = 0xD#4 ∨ op = 0xE#4 ∨ op = 0xF#4 := by
  have hlt : op.toNat < 16 := op.isLt
  simp only [← BitVec.toNat_inj, BitVec.toNat_ofNat]
  omega

theorem Record.instr_eq_error_iff (r : Record) : r.instr = .error (.reservedOpcode r.op) ↔ 13 ≤ r.op.toNat := by
  constructor
  · intro h
    by_contra hlt
    obtain ⟨i, hi⟩ := Record.instr_of_opcodeKnown (r := r) (by omega)
    simp [hi] at h
  · intro h
    obtain ⟨e, he⟩ := Record.instr_of_reserved h
    have hcase : r.instr = .error (.reservedOpcode r.op) ∨ ∃ i, r.instr = .ok i := by
      unfold Record.instr
      split <;> simp
    obtain hr | ⟨i, hi⟩ := hcase
    · exact hr
    · simp [he] at hi

/-- Settles O6: thirteen opcodes are known, and the three values above them are not. -/
theorem exactlyTheReservedOpcodesDecodeToNothing : Obligations.ExactlyTheReservedOpcodesDecodeToNothing := fun r =>
  (Record.instr_eq_error_iff r).trans (OpBits.reserved_iff r.op)

/-- Settles O7: each word is evaluated. -/
theorem writtenOutWordsDecode : Obligations.WrittenOutWordsDecode := ⟨rfl, rfl, rfl, rfl, rfl, rfl, rfl⟩

end Sys2Proof

/-! What each instruction does in the stage step that runs it, as a whole next state (40_pipeline.md R112 to R131;
42_loadstore.md R182, R184; 43_control.md R190). -/

namespace Sys2Proof.Machine

section
variable {s : State} {i : Instr}

/-! ### Decode -/

theorem pending_eq_false_iff {src : Option Reg} : pending s src = false ↔ ∀ r, src = some r → s.validAt r = true := by
  cases src <;> simp [pending]

theorem dataHazard_eq_false_iff {src1 src2 dst : Option Reg} :
    dataHazard src1 src2 dst s = false ↔
      (∀ r, src1 = some r ∨ src2 = some r → s.validAt r = true) ∧
        (s.cfgRelease = .wb → ∀ r, dst = some r → s.validAt r = true) := by
  rw [dataHazard, Bool.or_eq_false_iff, Bool.or_eq_false_iff, Bool.and_eq_false_imp, decide_eq_true_iff,
    pending_eq_false_iff, pending_eq_false_iff, pending_eq_false_iff]
  simp only [or_imp, forall_and]

/-- Settles O8: with no hazard the issue reads and then acquires. -/
theorem legalInstructionIssues : Obligations.LegalInstructionIssues := by
  intro i s hi hst hsrc hdst
  rw [exec_decode hst hi, issue_ok.2 (.inr ⟨dataHazard_eq_false_iff.2 ⟨hsrc, hdst⟩, rfl⟩), settle_ok, acquire_eq]
  rfl

/-- Settles O9: the pending register is a data hazard. -/
theorem dataHazardOnlyMarksTheLatchStalled : Obligations.DataHazardOnlyMarksTheLatchStalled := by
  intro i s r _ hst hpending hr
  refine exec_decode_of_dataHazard hst (by_contra fun hno => ?_)
  obtain ⟨hsrc, hdst⟩ := dataHazard_eq_false_iff.1 (by simpa using hno)
  obtain h | h | ⟨hwb, h⟩ := hr
  · simp [hsrc r (.inl h)] at hpending
  · simp [hsrc r (.inr h)] at hpending
  · simp [hdst hwb r h] at hpending

/-! ### Execute -/

theorem opcode_ne_mul_of_executeTicks (h : executeTicks i = 1) : i.opcode ≠ 0x3#4 := by
  cases i with
  | mul => cases h
  | movc | add | sub | and | or | xor | load | store | bz | bnz | jump | halt => simp [Instr.opcode]

/-- An ALU instruction's `ex_action` puts its result into `res` (41_alu.md R161). -/
theorem instrAct_of_aluResult {l : Latch} {v : Word} (h : aluResult i l.a l.b = some v) :
    instrAct i l = { l with res := v } := by
  cases i with
  | load | store | bz | bnz | jump | halt => cases h
  | movc | mul | and | or | xor =>
    cases h
    rfl
  | add | sub =>
    cases h
    simp [instrAct, withRes]

/-- Settles O10: the release is due and finds the register pending, and then `instrAct` computes. -/
theorem singleTickAluInstructionsExecute : Obligations.SingleTickAluInstructionsExecute := by
  intro i s rd v hticks hdst hv hst hpending
  rw [exec_execute_single hst (opcode_ne_mul_of_executeTicks hticks), hdst]
  simp only [completeExecute, executeWriter_releases hpending, instrAct_of_aluResult hv, settle_ok]

/-! ### Memory -/

theorem exec_load_memory (rd rs1 : Reg) (imm : Word) (hst : s.stage = .memory)
    (hin : inBounds s.params.dmSize s.lM.ea = true) :
    exec (.load rd rs1 imm) s = .next (s.setM { s.lM with res := Memory.read s.dm (cellOf s.lM.ea) }) := by
  rw [exec_memory _ hst]
  exact congrArg (settle s) (checkBounds_ok.2 ⟨hin, rfl⟩)

theorem exec_store_memory (rs1 rs2 : Reg) (imm : Word) (hst : s.stage = .memory)
    (hin : inBounds s.params.dmSize s.lM.ea = true) :
    exec (.store rs1 rs2 imm) s = .next (s.setDm (Memory.write s.dm (cellOf s.lM.ea) s.lM.a)) := by
  rw [exec_memory _ hst]
  exact congrArg (settle s) (checkBounds_ok.2 ⟨hin, rfl⟩)

/-- Settles O13: the signed address in bounds is the number of the cell that `readIntoLatch` reads. -/
theorem loadReadsItsCell : Obligations.LoadReadsItsCell := by
  intro s rd rs1 imm hst hlow hhigh
  have hin := inBounds_iff.2 ⟨hlow, hhigh⟩
  rw [exec_load_memory rd rs1 imm hst hin, cellOf_eq hin]
  rfl

/-- Settles O14: the write is inside the memory, so it is canonical, and it is read back in its one cell. -/
theorem storeWritesItsCell : Obligations.StoreWritesItsCell := by
  intro s rs1 rs2 imm hst hwf hlow hhigh
  have hin := inBounds_iff.2 ⟨hlow, hhigh⟩
  refine ⟨_, exec_store_memory rs1 rs2 imm hst hin, Memory.wf_write hwf (inBounds_cellOf hin).1 _, fun c => ?_⟩
  rw [Memory.read_write hwf, cellOf_eq hin]

/-- Settles O17: the LOAD reads the cell that the STORE has just written. -/
theorem loadAfterStoreReadsTheStoredValue : Obligations.LoadAfterStoreReadsTheStoredValue := by
  intro s l rd base rs1 rs2 imm imm' hst hwf hlow hhigh hea
  have hin := inBounds_iff.2 ⟨hlow, hhigh⟩
  have hin' : inBounds s.params.dmSize l.ea = true := hea ▸ hin
  refine ⟨_, _, exec_store_memory rs1 rs2 imm hst hin,
    exec_load_memory (s := (s.setDm (Memory.write s.dm (cellOf s.lM.ea) s.lM.a)).setM l) rd base imm' hst hin', ?_⟩
  show Memory.read (Memory.write s.dm (cellOf s.lM.ea) s.lM.a) (cellOf l.ea) = s.lM.a
  rw [hea, Memory.read_write hwf, if_pos rfl]

theorem memoryAction_of_no_access (h7 : i.opcode ≠ 0x7#4) (h8 : i.opcode ≠ 0x8#4) : memoryAction i = passOn := by
  cases i with
  | load => exact absurd rfl h7
  | store => exact absurd rfl h8
  | movc | add | sub | mul | and | or | xor | bz | bnz | jump | halt => rfl

/-- Settles O16: the Memory action of the other eleven is `passOn`. -/
theorem otherInstructionsPassTheMemoryStep : Obligations.OtherInstructionsPassTheMemoryStep := by
  intro i s h7 h8 hst
  rw [exec_memory i hst, memoryAction_of_no_access h7 h8]
  rfl

/-! ### Writeback -/

/-- A writer's commit when its release finds the register pending, or is not due (R114, R118). -/
theorem commit_releases {rd : Reg} (h : s.cfgRelease = .wb → s.validAt rd = false) :
    commit rd s = .ok
      { s with
        regs := s.regs.set rd s.lW.res
        retired := s.retired + 1
        valid := if s.cfgRelease = .wb then s.valid.set rd true else s.valid } := by
  by_cases hc : s.cfgRelease = .wb
  · rw [if_pos hc]
    exact commit_ok.2 (.inl ⟨hc, h hc, rfl⟩)
  · have hex : s.cfgRelease = .ex := by cases hr : s.cfgRelease <;> simp_all
    rw [if_neg hc]
    exact commit_ok.2 (.inr ⟨hex, rfl⟩)

/-- Settles O18: Writeback's action on a writer is `commit`, whose release is due and finds the register pending. -/
theorem writersCommitAndRetire : Obligations.WritersCommitAndRetire := by
  intro i s rd hdst hst hpending
  rw [exec_writeback i hst, hdst, writebackAction, commit_releases hpending, settle_ok]

/-- Settles O19: Writeback's action on the others is `retireOnly`. -/
theorem nonWritersOnlyRetire : Obligations.NonWritersOnlyRetire := by
  intro i s hdst hst
  rw [exec_writeback i hst, hdst]
  rfl

/-! ### Control opcodes -/

/-- Settles O20: Decode's raise is settled as fault entry. -/
theorem controlOpcodesRaiseUnimplUnderFault : Obligations.ControlOpcodesRaiseUnimplUnderFault := fun _ _ hi hst hu =>
  exec_decode_control hi hst hu

theorem not_access_of_isControl (hi : isControl i = true) :
    i.opcode ≠ 0x3#4 ∧ i.opcode ≠ 0x7#4 ∧ i.opcode ≠ 0x8#4 := by
  have hlow := (isControl_iff i).1 hi
  refine ⟨?_, ?_, ?_⟩ <;> (intro h; simp [h] at hlow)

/-- Settles O21: a control opcode names no register, and has an action in no stage but Writeback's retirement. -/
theorem controlOpcodesAreInertUnderNop : Obligations.ControlOpcodesAreInertUnderNop := by
  intro i s hi hu
  obtain ⟨h3, h7, h8⟩ := not_access_of_isControl hi
  obtain ⟨-, -, hdst⟩ := sources_of_isControl hi
  refine ⟨fun hst => ?decode, fun hst => ?execute, otherInstructionsPassTheMemoryStep i s h7 h8,
    nonWritersOnlyRetire i s hdst⟩
  case decode =>
    cases i with
    | bz | bnz | jump | halt => exact (perStage_decode hst).trans (by rw [controlDecode_nop hu]; rfl)
    | movc | add | sub | mul | and | or | xor | load | store => cases hi
  case execute =>
    rw [exec_execute_single hst h3, hdst]
    cases i with
    | bz | bnz | jump | halt => rfl
    | movc | add | sub | mul | and | or | xor | load | store => cases hi

/-! ### Double releases -/

/-- Execute of a writer whose release is a double one, a MUL's finish included (60_exceptions.md R205). -/
theorem exec_execute_doubleRelease {rd : Reg} (hdst : dstOf i = some rd) (hvalid : s.validAt rd = true)
    (hst : s.stage = .execute) (hex : s.cfgRelease = .ex) (hlast : executeTicks i = 1 ∨ s.lE.busy = true) :
    exec i s = .next (takeFault s ⟨.sbInvariant, s.lE.pc, regInfo rd⟩) := by
  by_cases hmul : i.opcode = 0x3#4
  · cases i with
    | mul q rs1 rs2 =>
      obtain rfl : q = rd := Option.some.inj hdst
      have hbusy : s.lE.busy = true := hlast.resolve_left (by simp [executeTicks])
      have hraise : executeWriter q (fun l => withRes (l.a * l.b) l) (mulFinish s) =
          .error ⟨.sbInvariant, s.lE.pc, regInfo q⟩ := executeWriter_error.2 ⟨hex, hvalid, rfl⟩
      rw [exec_mul_finish hst hbusy, hraise, settle_error]
    | movc | add | sub | and | or | xor | load | store | bz | bnz | jump | halt => simp [Instr.opcode] at hmul
  · have hraise : completeExecute (some rd) (instrAct i) s = .error ⟨.sbInvariant, s.lE.pc, regInfo rd⟩ :=
      executeWriter_error.2 ⟨hex, hvalid, rfl⟩
    rw [exec_execute_single hst hmul, hdst, hraise, settle_error]

/-- Settles O22: the release is the first thing a writer's completing step does, and its raise discards the step. -/
theorem doubleReleaseRaisesSbInvariant : Obligations.DoubleReleaseRaisesSbInvariant := by
  intro i s rd hdst hvalid
  refine ⟨exec_execute_doubleRelease hdst hvalid, fun hst hwb => ?_⟩
  have hraise : commit rd s = .error ⟨.sbInvariant, s.lW.pc, regInfo rd⟩ := commit_error.2 ⟨hwb, hvalid, rfl⟩
  rw [exec_writeback i hst, hdst, writebackAction, hraise]
  rfl

/-! ### The frame of an instruction -/

/-- `v` differs from `valid` at most at the destination. -/
def ValidFrame (dst : Option Reg) (valid v : Vector Bool Config.nregs) : Prop :=
  ∀ r : Reg, dst ≠ some r → v[r] = valid[r]

theorem validFrame_refl (dst : Option Reg) (valid : Vector Bool Config.nregs) : ValidFrame dst valid valid :=
  fun _ _ => rfl

theorem validFrame_set {dst : Option Reg} {q : Reg} (hq : dst = some q) (valid : Vector Bool Config.nregs) (b : Bool) :
    ValidFrame dst valid (valid.set q b) := fun _ hr =>
  set_getElem_of_ne valid b fun heq => hr (hq.trans (congrArg some heq))

theorem validFrame_acquired (dst : Option Reg) (valid : Vector Bool Config.nregs) :
    ValidFrame dst valid (acquired dst valid) := by
  cases dst with
  | none => exact validFrame_refl none valid
  | some q => exact validFrame_set rfl valid false

/-- What an instruction leaves at Decode: its own latch, and the scoreboard at its destination. -/
theorem exec_decode_frame {t : State} (hst : s.stage = .decode) (h : exec i s = .next t) :
    (∃ f, t = takeFault s f) ∨ ∃ l v, t = { s with lD := l, valid := v } ∧ ValidFrame (dstOf i) s.valid v := by
  by_cases hfault : isControl i = true ∧ s.cfgUnimpl = .fault
  · rw [exec_decode_control hfault.1 hst hfault.2] at h
    cases h
    exact .inl ⟨_, rfl⟩
  · have hnop : isControl i = true → s.cfgUnimpl = .nop := fun hc => by
      cases hu : s.cfgUnimpl with
      | nop => rfl
      | fault => exact absurd ⟨hc, hu⟩ hfault
    rw [exec_decode_issues hst hnop] at h
    obtain hok | ⟨f, herr, -⟩ := settle_next.1 h
    · right
      obtain ⟨-, rfl⟩ | ⟨-, rfl⟩ := issue_ok.1 hok
      · exact ⟨_, _, rfl, validFrame_refl _ _⟩
      · exact ⟨_, _, acquire_eq _ _, validFrame_acquired _ _⟩
    · exact absurd herr (issue_ne_error _ _ _ _ _)

theorem completeExecute_frame {dst : Option Reg} {act : Latch → Latch} {t : State}
    (h : completeExecute dst act s = .ok t) :
    ∃ l v, t = { s with lE := l, valid := v } ∧ ValidFrame dst s.valid v := by
  cases dst with
  | none =>
    cases h
    exact ⟨_, _, rfl, validFrame_refl _ _⟩
  | some rd =>
    obtain ⟨-, -, rfl⟩ | ⟨-, rfl⟩ := executeWriter_ok.1 h
    · exact ⟨_, _, rfl, validFrame_set rfl _ _⟩
    · exact ⟨_, _, rfl, validFrame_refl _ _⟩

/-- What an instruction leaves at Execute: its own latch, the marks of a MUL, and the scoreboard at its destination. -/
theorem exec_execute_frame {t : State} (hst : s.stage = .execute) (h : exec i s = .next t) :
    (∃ f, t = takeFault s f) ∨
      ∃ lF lD lE v, t = { s with lF := lF, lD := lD, lE := lE, valid := v } ∧ ValidFrame (dstOf i) s.valid v := by
  by_cases hmul : i.opcode = 0x3#4
  · cases i with
    | mul rd rs1 rs2 =>
      cases hb : s.lE.busy with
      | false =>
        rw [exec_mul_start hst hb] at h
        cases h
        exact .inr ⟨_, _, _, _, rfl, validFrame_refl _ _⟩
      | true =>
        rw [exec_mul_finish hst hb] at h
        obtain hok | ⟨f, -, rfl⟩ := settle_next.1 h
        · obtain ⟨l, v, rfl, hv⟩ := completeExecute_frame (s := mulFinish s) (dst := some rd)
            (act := fun l => withRes (l.a * l.b) l) hok
          exact .inr ⟨_, _, l, v, rfl, hv⟩
        · exact .inl ⟨f, rfl⟩
    | movc | add | sub | and | or | xor | load | store | bz | bnz | jump | halt => simp [Instr.opcode] at hmul
  · rw [exec_execute_single hst hmul] at h
    obtain hok | ⟨f, -, rfl⟩ := settle_next.1 h
    · obtain ⟨l, v, rfl, hv⟩ := completeExecute_frame hok
      exact .inr ⟨_, _, l, v, rfl, hv⟩
    · exact .inl ⟨f, rfl⟩

/-- What an instruction leaves at Memory: its own latch, and the cell of a STORE in bounds. -/
theorem exec_memory_frame {t : State} (hwf : Memory.wf s.params.dmSize s.dm = true) (hst : s.stage = .memory)
    (h : exec i s = .next t) :
    (∃ f, t = takeFault s f) ∨
      ∃ m l, t = { s with dm := m, lM := l } ∧
        ∀ c, ¬(i.opcode = 0x8#4 ∧ inBounds s.params.dmSize s.lM.ea = true ∧ c = cellOf s.lM.ea) →
          Memory.read m c = Memory.read s.dm c := by
  rw [exec_memory i hst] at h
  obtain hok | ⟨f, -, rfl⟩ := settle_next.1 h
  · right
    cases i with
    | load =>
      obtain ⟨-, rfl⟩ := checkBounds_ok.1 hok
      exact ⟨_, _, rfl, fun _ _ => rfl⟩
    | store =>
      obtain ⟨hin, rfl⟩ := checkBounds_ok.1 hok
      refine ⟨_, _, rfl, fun c hc => ?_⟩
      rw [Memory.read_write hwf, if_neg fun heq => hc ⟨rfl, hin, heq⟩]
    | movc | add | sub | mul | and | or | xor | bz | bnz | jump | halt =>
      cases hok
      exact ⟨_, _, rfl, fun _ _ => rfl⟩
  · exact .inl ⟨f, rfl⟩

/-- What an instruction leaves at Writeback: its destination's register and scoreboard entry, and the count. -/
theorem exec_writeback_frame {t : State} (hst : s.stage = .writeback) (h : exec i s = .next t) :
    (∃ f, t = takeFault s f) ∨
      ∃ regs v, t = { s with regs := regs, valid := v, retired := s.retired + 1 } ∧
        (∀ r : Reg, dstOf i ≠ some r → regs[r] = s.regs[r]) ∧ ValidFrame (dstOf i) s.valid v := by
  rw [exec_writeback i hst] at h
  obtain hok | ⟨f, -, rfl⟩ := settle_next.1 h
  · right
    cases hd : dstOf i with
    | none =>
      rw [hd] at hok
      cases hok
      exact ⟨_, _, rfl, fun _ _ => rfl, validFrame_refl _ _⟩
    | some rd =>
      rw [hd] at hok
      have hregs : ∀ r : Reg, some rd ≠ some r → (s.regs.set rd s.lW.res)[r] = s.regs[r] := fun r hr =>
        set_getElem_of_ne s.regs s.lW.res fun heq => hr (congrArg some heq)
      obtain ⟨-, -, rfl⟩ | ⟨-, rfl⟩ := commit_ok.1 hok
      · exact ⟨_, _, rfl, hregs, validFrame_set rfl _ _⟩
      · exact ⟨_, _, rfl, hregs, validFrame_refl _ _⟩
  · exact .inl ⟨f, rfl⟩

/-- Settles O23: fault entry changes nothing but the fault registers, `clock` and `status`; otherwise each stage has its
frame. -/
theorem frameOfEveryInstruction : Obligations.FrameOfEveryInstruction := by
  intro i s t hwf hs h
  cases hst : s.stage with
  | fetch =>
    rw [exec_fetch i hst] at h
    cases h
    obtain ⟨-, hact⟩ | ⟨-, -, hact⟩ | ⟨-, -, hact⟩ := fetchAct_cases s <;> simp [hact, hs, hst]
  | decode =>
    obtain ⟨f, rfl⟩ | ⟨l, v, rfl, hv⟩ := exec_decode_frame hst h
    · simp
    · simpa [State.reg, State.validAt, hs, hst, ValidFrame] using hv
  | execute =>
    obtain ⟨f, rfl⟩ | ⟨lF, lD, lE, v, rfl, hv⟩ := exec_execute_frame hst h
    · simp
    · simpa [State.reg, State.validAt, hs, hst, ValidFrame] using hv
  | memory =>
    obtain ⟨f, rfl⟩ | ⟨m, l, rfl, hm⟩ := exec_memory_frame hwf hst h
    · simp
    · simpa [State.reg, State.validAt, hs, hst] using hm
  | writeback =>
    obtain ⟨f, rfl⟩ | ⟨regs, v, rfl, hregs, hv⟩ := exec_writeback_frame hst h
    · simp
    · simpa [State.reg, State.validAt, hs, hst, ValidFrame] using And.intro hregs hv

end

end Sys2Proof.Machine

/-! What a tick leaves unchanged outside the one step that may write it (10_state.md R22, R25; 20_memory.md R60), and the
statements about single steps and ports. -/

namespace Sys2Proof.Machine

section
variable {s t : State}

/-! ### Observations that a part of the tick keeps -/

/-- What both parts of a tick keep, the tick keeps. -/
theorem thenRunning_observes {α : Type} {obs : State → α} {o : Result} {rest : State → Result}
    (ho : ∀ u, o = .next u → obs u = obs s) (hrest : ∀ u, rest u = .next t → obs t = obs u)
    (h : thenRunning o rest = .next t) : obs t = obs s := by
  obtain ⟨u, hu, ⟨-, ht⟩ | ⟨-, rfl⟩⟩ := thenRunning_next.1 h
  · exact (hrest u ht).trans (ho u hu)
  · exact ho t hu

/-- Neither fault entry nor the frame of stage `st` changes the observation. -/
def Unobserved {α : Type} (obs : State → α) (st : Stage) : Prop := ∀ s t, StageEnds st s t → obs t = obs s

theorem unobserved_of_frame {α : Type} {obs : State → α} {st : Stage} (hfault : ∀ s f, obs (takeFault s f) = obs s)
    (hframe : ∀ s t, obs (writtenBy st s t) = obs s) : Unobserved obs st := by
  rintro s t (⟨f, rfl⟩ | h)
  · exact hfault s f
  · rw [h, hframe]

theorem tickFromExecute_observes {α : Type} {obs : State → α} (hex : Unobserved obs .execute)
    (hde : Unobserved obs .decode) (hfe : Unobserved obs .fetch) (hend : ∀ u, obs (endTick u) = obs u)
    (h : tickFromExecute s = .next t) : obs t = obs s :=
  thenRunning_observes (fun _ hu => hex _ _ (stepEX_ends hu)) (fun _ =>
    thenRunning_observes (fun _ hu => hde _ _ (stepDE_ends hu)) fun _ =>
    thenRunning_observes (fun _ hu => hfe _ _ (stepF_ends hu)) (by rintro u ⟨⟩; exact hend u)) h

theorem tickFromMemory_observes {α : Type} {obs : State → α} (hmem : Unobserved obs .memory)
    (hex : Unobserved obs .execute) (hde : Unobserved obs .decode) (hfe : Unobserved obs .fetch)
    (hend : ∀ u, obs (endTick u) = obs u) (h : tickFromMemory s = .next t) : obs t = obs s :=
  thenRunning_observes (fun _ hu => hmem _ _ (stepMEM_ends hu))
    (fun _ => tickFromExecute_observes hex hde hfe hend) h

/-! ### Registers -/

theorem regs_unobserved {st : Stage} (h : st ≠ .writeback) : Unobserved State.regs st := by
  refine unobserved_of_frame (fun _ _ => rfl) fun s t => ?_
  cases st with
  | writeback => contradiction
  | memory | execute | decode | fetch => rfl

theorem endTick_regs (s : State) : (endTick s).regs = s.regs := by rw [endTick_eq]

/-- The steps after Writeback leave the register file as it left it. -/
theorem tick_regs (h : tick s = .next t) : ∃ u, stepWB s = .next u ∧ t.regs = u.regs := by
  obtain ⟨u, hu, ⟨-, ht⟩ | ⟨-, rfl⟩⟩ := thenRunning_next.1 h
  · exact ⟨u, hu, tickFromMemory_observes (regs_unobserved (by decide)) (regs_unobserved (by decide))
      (regs_unobserved (by decide)) (regs_unobserved (by decide)) endTick_regs ht⟩
  · exact ⟨t, hu, rfl⟩

theorem stepWB_reg {u : State} (h : stepWB s = .next u) (r : Reg) :
    u.reg r = s.reg r ∨ (s.lW.acts = true ∧ latchDst s.lW = some r ∧ u.reg r = s.lW.res) := by
  cases ha : s.lW.acts with
  | false =>
    obtain rfl : s = u := by simpa [stepWB, ha] using h
    exact .inl rfl
  | true =>
    obtain ⟨i, hi, -⟩ := runLatch_next.1 ((if_pos ha).symm.trans h)
    rw [stepWB_of_instr ha hi] at h
    obtain hok | ⟨f, -, rfl⟩ := settle_next.1 h
    · cases hd : latchDst s.lW with
      | none =>
        rw [hd] at hok
        cases hok
        exact .inl rfl
      | some rd =>
        rw [hd] at hok
        have hreg : u.reg r = if r = rd then s.lW.res else s.reg r := by
          obtain ⟨-, -, rfl⟩ | ⟨-, rfl⟩ := commit_ok.1 hok
          · exact setReg_reg ((s.atStage .writeback).setValid rd true) rd s.lW.res r
          · exact setReg_reg (s.atStage .writeback) rd s.lW.res r
        by_cases hr : r = rd
        · exact .inr ⟨rfl, by rw [hr], by rw [hreg, if_pos hr]⟩
        · exact .inl (by rw [hreg, if_neg hr])
    · exact .inl rfl

/-- Settles O31: after Writeback no step writes a register, and Writeback writes its destination's. -/
theorem registersChangeOnlyByWriteback : Obligations.RegistersChangeOnlyByWriteback := by
  intro s t r hticks h hne
  rw [step_of_ticks hticks] at h
  obtain ⟨u, hwb, hregs⟩ := tick_regs h
  have hreg : t.reg r = u.reg r := by rw [State.reg, hregs, State.reg]
  rw [hreg] at hne ⊢
  exact (stepWB_reg hwb r).resolve_left hne

/-! ### Data memory -/

theorem dm_unobserved {st : Stage} (h : st ≠ .memory) : Unobserved State.dm st := by
  refine unobserved_of_frame (fun _ _ => rfl) fun s t => ?_
  cases st with
  | memory => contradiction
  | writeback | execute | decode | fetch => rfl

theorem endTick_dm (s : State) : (endTick s).dm = s.dm := by rw [endTick_eq]

/-- What Memory's step reads of a state. -/
def memoryInputs (s : State) : Memory × Latch × Params := (s.dm, s.lM, s.params)

theorem memoryInputs_unobserved : Unobserved memoryInputs .writeback :=
  unobserved_of_frame (fun _ _ => rfl) fun _ _ => rfl

/-- The Memory step changes only the cell of a STORE in bounds, to its operand. -/
theorem stepMEM_cell {u : State} (hwf : Memory.wf s.params.dmSize s.dm = true) (h : stepMEM s = .next u) (c : Nat) :
    Memory.read u.dm c = Memory.read s.dm c ∨
      (s.lM.acts = true ∧ s.lM.op = 0x8#4 ∧ inBounds s.params.dmSize s.lM.ea = true ∧ c = cellOf s.lM.ea ∧
        Memory.read u.dm c = s.lM.a) := by
  have hcopy : ∃ v, (if s.lM.acts then runLatch s.lM .memory s else .next s) = .next v ∧ u.dm = v.dm := by
    obtain ⟨v, hv, ⟨-, ⟨⟩⟩ | ⟨-, rfl⟩⟩ := thenRunning_next.1 h
    · exact ⟨v, hv, rfl⟩
    · exact ⟨u, hv, rfl⟩
  obtain ⟨v, hv, hdm⟩ := hcopy
  rw [hdm]
  cases ha : s.lM.acts with
  | false =>
    obtain rfl : s = v := by simpa [ha] using hv
    exact .inl rfl
  | true =>
    obtain ⟨i, hi, hexec⟩ := runLatch_next.1 ((if_pos ha).symm.trans hv)
    have hop : i.opcode = s.lM.op := Record.opcode_of_instr hi
    by_cases hstore : i.opcode = 0x8#4 ∧ inBounds s.params.dmSize s.lM.ea = true ∧ c = cellOf s.lM.ea
    · obtain ⟨hcode, hin, rfl⟩ := hstore
      refine .inr ⟨rfl, hop ▸ hcode, hin, rfl, ?_⟩
      cases i with
      | store rs1 rs2 imm =>
        rw [exec_store_memory (s := s.atStage .memory) rs1 rs2 imm rfl hin] at hexec
        cases hexec
        exact (Memory.read_write hwf _ _ _).trans (if_pos rfl)
      | movc | add | sub | mul | and | or | xor | load | bz | bnz | jump | halt => simp [Instr.opcode] at hcode
    · obtain ⟨f, rfl⟩ | ⟨m, l, rfl, hm⟩ := exec_memory_frame (s := s.atStage .memory) hwf rfl hexec
      · exact .inl rfl
      · exact .inl (hm c hstore)

/-- Settles O32: Writeback leaves Memory's latch and the cells alone, and the steps after Memory leave the cells alone. -/
theorem cellsChangeOnlyByStore : Obligations.CellsChangeOnlyByStore := by
  intro s t c hticks hwf h hne
  rw [step_of_ticks hticks] at h
  obtain ⟨u, hu, ⟨-, ht⟩ | ⟨-, rfl⟩⟩ := thenRunning_next.1 h
  · have hinputs : memoryInputs u = memoryInputs s := memoryInputs_unobserved _ _ (stepWB_ends hu)
    obtain ⟨hdm, hlatch⟩ := Prod.mk.inj hinputs
    obtain ⟨hlM, hparams⟩ := Prod.mk.inj hlatch
    have hmem : ∃ v, stepMEM u = .next v ∧ t.dm = v.dm := by
      obtain ⟨v, hv, ⟨-, ht'⟩ | ⟨-, rfl⟩⟩ := thenRunning_next.1 ht
      · exact ⟨v, hv, tickFromExecute_observes (dm_unobserved (by decide)) (dm_unobserved (by decide))
          (dm_unobserved (by decide)) endTick_dm ht'⟩
      · exact ⟨t, hv, rfl⟩
    obtain ⟨v, hv, htv⟩ := hmem
    have hcell := stepMEM_cell (s := u) (by rw [hparams, hdm]; exact hwf) hv c
    rw [hdm, hlM, hparams, ← htv] at hcell
    obtain ⟨hacts, hop, hin, rfl, hvalue⟩ := hcell.resolve_left hne
    obtain ⟨hlt, heq⟩ := inBounds_cellOf hin
    exact ⟨hacts, hop, heq, hlt, hvalue⟩
  · exact absurd (congrArg (Memory.read · c) (dm_unobserved (by decide) _ _ (stepWB_ends hu))) hne

/-! ### The program counter -/

/-- What Fetch's step reads of the program. -/
def fetchInputs (s : State) : Addr × List RecordWord × Params := (s.pc, s.prog, s.params)

theorem fetchInputs_unobserved {st : Stage} (h : st ≠ .fetch) : Unobserved fetchInputs st := by
  refine unobserved_of_frame (fun _ _ => rfl) fun s t => ?_
  cases st with
  | fetch => contradiction
  | writeback | memory | execute | decode => rfl

/-- A tick ends with its Fetch step on the program counter it began with, or before it. -/
theorem tick_fetches (h : tick s = .next t) :
    fetchInputs t = fetchInputs s ∨
      ∃ u, fetchInputs u = fetchInputs s ∧ t = endTick (fetchAct (u.atStage .fetch)) := by
  obtain ⟨u1, h1, ⟨-, ht⟩ | ⟨-, rfl⟩⟩ := thenRunning_next.1 h
  · have e1 := fetchInputs_unobserved (by decide) _ _ (stepWB_ends h1)
    obtain ⟨u2, h2, ⟨-, ht⟩ | ⟨-, rfl⟩⟩ := thenRunning_next.1 ht
    · have e2 := fetchInputs_unobserved (by decide) _ _ (stepMEM_ends h2)
      obtain ⟨u3, h3, ⟨-, ht⟩ | ⟨-, rfl⟩⟩ := thenRunning_next.1 ht
      · have e3 := fetchInputs_unobserved (by decide) _ _ (stepEX_ends h3)
        obtain ⟨u4, h4, ⟨hrun, ht⟩ | ⟨-, rfl⟩⟩ := thenRunning_next.1 ht
        · have e4 := fetchInputs_unobserved (by decide) _ _ (stepDE_ends h4)
          rw [fetch_endTick hrun] at ht
          cases ht
          exact .inr ⟨u4, e4.trans (e3.trans (e2.trans e1)), rfl⟩
        · exact .inl ((fetchInputs_unobserved (by decide) _ _ (stepDE_ends h4)).trans (e3.trans (e2.trans e1)))
      · exact .inl ((fetchInputs_unobserved (by decide) _ _ (stepEX_ends h3)).trans (e2.trans e1))
    · exact .inl ((fetchInputs_unobserved (by decide) _ _ (stepMEM_ends h2)).trans e1)
  · exact .inl (fetchInputs_unobserved (by decide) _ _ (stepWB_ends h1))

theorem fetchLatch_pc (s : State) : s.fetchLatch.pc = s.pc := by
  unfold State.fetchLatch
  split <;> rfl

/-- Settles O33: only Fetch writes `pc`, and it advances it past a record that it loads. -/
theorem pcHoldsOrAdvancesByFour : Obligations.PcHoldsOrAdvancesByFour := by
  intro s t hticks h
  rw [step_of_ticks hticks] at h
  obtain hkept | ⟨u, hu, rfl⟩ := tick_fetches h
  · exact .inl (congrArg Prod.fst hkept)
  · obtain ⟨hpc, hrest⟩ := Prod.mk.inj hu
    obtain ⟨hprog, hparams⟩ := Prod.mk.inj hrest
    have hword : u.fetchWord? = s.fetchWord? := by rw [State.fetchWord?, hpc, hprog, hparams, State.fetchWord?]
    rw [endTick_eq]
    obtain ⟨-, hact⟩ | ⟨-, -, hact⟩ | ⟨-, -, hact⟩ := fetchAct_cases (u.atStage .fetch)
    · exact .inl (by simp [hact, hpc])
    · exact .inl (by simp [hact, hpc])
    · cases hsome : s.fetchWord?.isSome with
      | false => exact .inl (by simp [hact, hpc, hword, hsome])
      | true => exact .inr ⟨by simp [hact, hpc, hword, hsome, hparams], rfl, by simp [hact, fetchLatch_pc, hpc]⟩

/-! ### Reserved opcodes -/

/-- Settles O38: the two branches of the Decode step that look at no instruction. -/
theorem reservedOpcodeRaisesMalformedAtDecode : Obligations.ReservedOpcodeRaisesMalformedAtDecode := by
  intro s hocc hop
  exact ⟨fun hstruct => stepDE_malformed hstruct hocc ((OpBits.reserved_iff s.lD.op).2 hop),
    stepDE_of_structuralHazard⟩

/-! ### Steps and stages -/

/-- Settles O2: each stage step is its latch's `exec` and a copy. -/
theorem eachStageStepRunsTheInstructionInItsLatch : Obligations.EachStageStepRunsTheInstructionInItsLatch := by
  intro s i
  refine ⟨fun ha hi => ?writeback, fun ha hi => ?memory, fun ha hi => ?execute, fun hstruct hocc hi => ?decode,
    fun w hw hi => ?fetch, step_of_ticks⟩
  case writeback => rw [stepWB, if_pos ha, runLatch_of_instr hi]
  case memory =>
    rw [stepMEM, if_pos ha, runLatch_of_instr hi]
    rfl
  case execute =>
    rw [stepEX, if_pos ha, runLatch_of_instr hi]
    rfl
  case decode => exact stepDE_of_instr hstruct hocc hi
  case fetch => simp [stepF, hw, hi]

theorem acts_empty : Latch.empty.acts = false ∧ Latch.empty.actsInExecute = false ∧ Latch.empty.occ = false :=
  ⟨rfl, rfl, rfl⟩

/-- An empty pipeline passes through the four steps before Fetch unchanged. -/
theorem beforeFetch_of_empty (hD : s.lD = Latch.empty) (hE : s.lE = Latch.empty) (hM : s.lM = Latch.empty)
    (hW : s.lW = Latch.empty) : beforeFetch s = s := by
  have h1 : afterWriteback s = s := afterWriteback_of_idle (by rw [hW]; rfl)
  have h2 : afterMemory s = s := by
    rw [afterMemory_of_idle (by rw [hM]; rfl), hM, ← hW]
    rfl
  have h3 : afterExecute s = s := by
    rw [afterExecute_of_idle (by rw [hE]; rfl), hE, ← hM]
    rfl
  have h4 : decodedLatch s = Latch.empty := by simp [decodedLatch, decodeHazard, hD, Latch.empty]
  rw [beforeFetch, h1, h2, h3, afterDecode, h4]
  cases s
  simp_all [Latch.empty, acquired]

/-- Settles O1: nothing in flight leaves the Fetch step alone to act. -/
theorem stepOnAnEmptyPipelineRunsTheFetchedInstruction :
    Obligations.StepOnAnEmptyPipelineRunsTheFetchedInstruction := by
  intro s w i hticks hst hF hD hE hM hW hw hi l t
  have hfetch : fetchAct s = t := by
    have hword : s.fetchWord?.isSome = true := by simp [hw]
    obtain ⟨hheld, -⟩ | ⟨-, hstalled, -⟩ | ⟨-, -, hact⟩ := fetchAct_cases s
    · simp [hF, Latch.empty] at hheld
    · simp [hD, Latch.empty] at hstalled
    · rw [hact, hword, fetchLatch_of_some hw]
      rfl
  have hlegal : LegalPastDecode s := ⟨by rw [hE]; nofun, by rw [hM]; nofun, by rw [hW]; nofun⟩
  have hstart : mulStarts s = false := mulStarts_of_idle (by rw [hE]; rfl)
  have hno : firstRaise s = none := by
    refine firstRaise_eq_none_iff.2 ⟨?_, memRaises_of_idle (by rw [hM]; rfl), ?_, ?_⟩
    · simp [wbRaises, wbWrites, hW, acts_empty, doubleRelease]
    · simp [exRaises, eExecutes, hE, acts_empty, doubleRelease]
    · simp [decodeProcesses, hD, acts_empty]
  have htick := tick_of_no_mulStart hticks.1 hlegal hno hstart
  have hrest : s.atStage .fetch = s := by rw [← hst]; rfl
  rw [beforeFetch_of_empty hD hE hM hW, hrest, hfetch] at htick
  exact ⟨(exec_fetch i hst).trans (congrArg _ hfetch), (step_of_ticks hticks).trans htick, hi⟩

/-! ### The clock edge -/

/-- Settles O25: a configuration that fails R9, or that no rule has a meaning for, is refused by its name. -/
theorem tooLongProgramIsRefused : Obligations.TooLongProgramIsRefused := by
  intro s
  refine ⟨fun hregs hstep hlong => ?_, fun hbad => ?_⟩
  · have hsupported : s.params.supported = true := by simpa [Params.supported, hregs] using hstep
    have hc : configOk s.params s.progLen = false := by
      have hlen : programLengthOk s.params s.progLen = false := decide_eq_false (Nat.not_lt.2 hlong)
      simp [configOk, hlen]
    rw [step_refused hc, if_pos hsupported]
  · have hunsupported : s.params.supported = false := by
      obtain h | h := hbad <;> simp [Params.supported, h]
    rw [step_refused (by simp [configOk, hunsupported]), hunsupported]
    rfl

/-- Settles O30: the parameters and `rst` are inputs, which no clock edge changes. -/
theorem noStepChangesTheParametersOrRst : Obligations.NoStepChangesTheParametersOrRst := by
  intro s t h
  obtain ⟨-, -, -, hparams, hrst⟩ := inputs_eq_iff.1 (step_inputs h)
  exact ⟨hparams, hrst⟩

/-! ### Output ports -/

theorem statusPort_iff (s : State) :
    (statusPort s = 0 ↔ s.status = .running) ∧ (statusPort s = 1 ↔ s.status = .complete) ∧
      (statusPort s = 2 ↔ s.status = .faulted) := by
  cases h : s.status <;> simp [statusPort, h]

theorem faultCodePort_iff (s : State) :
    (faultCodePort s = 0 ↔ s.faultCode = .none) ∧ (faultCodePort s = 1 ↔ s.faultCode = .bounds) ∧
      (faultCodePort s = 2 ↔ s.faultCode = .unimpl) ∧ (faultCodePort s = 3 ↔ s.faultCode = .sbInvariant) ∧
      (faultCodePort s = 4 ↔ s.faultCode = .malformed) := by
  cases h : s.faultCode <;> simp [faultCodePort, h]

theorem validPort_getLsbD (s : State) (r : Reg) : (validPort s).getLsbD r.val = s.validAt r := by
  exact (BitVec.getLsbD_ofFnLE _ _).trans (dif_pos r.isLt)

/-- Settles O60: each port's code names one value of its field. -/
theorem outputPortsShowTheState : Obligations.OutputPortsShowTheState := by
  intro s
  obtain ⟨hs0, hs1, hs2⟩ := statusPort_iff s
  obtain ⟨hf0, hf1, hf2, hf3, hf4⟩ := faultCodePort_iff s
  exact ⟨validPort_getLsbD s, hs0, hs1, hs2, hf0, hf1, hf2, hf3, hf4, fun a ha => if_pos ha⟩

end

end Sys2Proof.Machine
